-- ==== Sys2Proof/Word.lean ====
section
/-! DEFINITION. The widths of the words that cross the block's ports and fill its stages (R10, R25 to R30). -/

namespace Sys2Proof

/-- `req_word[20:0]`, the request port's word (R25, R70). -/
abbrev ReqWord := BitVec 21
/-- `rsp_word[34:0]`, the response port's word (R26, R78). -/
abbrev RspWord := BitVec 35
/-- The `value` field of a request, `req_word[15:0]` (R70, R72). -/
abbrev Operand := BitVec 16
/-- A frame's payload: a throttle or a command code (R8, R105). -/
abbrev Payload := BitVec 11
/-- The checksum nibble (R8, R100). -/
abbrev Nibble := BitVec 4
/-- A 16-bit DSHOT frame (R8, R103). -/
abbrev Frame := BitVec 16
/-- The raw telemetry value (R8, R160). -/
abbrev Raw := BitVec 12
/-- The telemetry period (R29, R161). -/
abbrev Period := BitVec 16
/-- A response's data word, and a stage's error data (R28, R78). -/
abbrev Data := BitVec 32
/-- The 3-bit status field (R28, R78, R79). -/
abbrev StatusCode := BitVec 3

end Sys2Proof
end

