-- ==== Sys2Proof/Syntax.lean ====
section
/-! DEFINITION. The block's operations: one constructor per row of spec/opcode_table.json, with the operands the row's
rule reads (R71, R72). Bits a rule ignores (R75) are no operand. -/

namespace Sys2Proof

/-- A request, decoded. -/
inductive Instr where
  /-- op 0, `ENC_THR value, telem, inv` (R120). -/
  | encThr (value : Operand) (telem inv : Bool)
  /-- op 1, `ENC_THR_CLAMP value, telem, inv` (R121). -/
  | encThrClamp (value : Operand) (telem inv : Bool)
  /-- op 2, `ENC_THR_MIN telem, inv` (R122); `value` is ignored. -/
  | encThrMin (telem inv : Bool)
  /-- op 3, `ENC_CMD code, inv` (R140); `telem` is ignored. -/
  | encCmd (code : Operand) (inv : Bool)
  /-- op 4, `ENC_REV reverse, inv` (R141); `telem` and `value[15:1]` are ignored. -/
  | encRev (reverse inv : Bool)
  /-- op 5, `DEC_ERPM raw` (R160); `inv` and `telem` are ignored. -/
  | decErpm (value : Operand)
  /-- op 6, illegal; `w` is `req_word[17:0]`, echoed (R204). -/
  | illegalOp6 (w : BitVec 18)
  /-- op 7, illegal; `w` is `req_word[17:0]`, echoed (R204). -/
  | illegalOp7 (w : BitVec 18)
  deriving DecidableEq, Repr

end Sys2Proof
end

