-- ==== Sys2Proof/Decode.lean ====
section
/-! DEFINITION. The decoder of the request word (R70 to R77, R83), total on its 2^21 words, and the encoder (R84). -/

namespace Sys2Proof

/-! ## The fields of a request word (R70) -/

/-- `op = req_word[20:18]`. -/
def reqOp (w : ReqWord) : BitVec 3 := w.extractLsb' 18 3
/-- `inv = req_word[17]`. -/
def reqInv (w : ReqWord) : Bool := w.getLsbD 17
/-- `telem = req_word[16]`. -/
def reqTelem (w : ReqWord) : Bool := w.getLsbD 16
/-- `value = req_word[15:0]`. -/
def reqValue (w : ReqWord) : Operand := w.extractLsb' 0 16
/-- `req_word[17:0]`, all but the op (R204). -/
def reqRest (w : ReqWord) : BitVec 18 := w.extractLsb' 0 18

/-- The operation a request word spells, from its op bits alone (R71, R83); total (R77). -/
def decode (w : ReqWord) : Instr :=
  match w.getLsbD 20, w.getLsbD 19, w.getLsbD 18 with
  | false, false, false => .encThr (reqValue w) (reqTelem w) (reqInv w)
  | false, false, true => .encThrClamp (reqValue w) (reqTelem w) (reqInv w)
  | false, true, false => .encThrMin (reqTelem w) (reqInv w)
  | false, true, true => .encCmd (reqValue w) (reqInv w)
  | true, false, false => .encRev (w.getLsbD 0) (reqInv w)
  | true, false, true => .decErpm (reqValue w)
  | true, true, false => .illegalOp6 (reqRest w)
  | true, true, true => .illegalOp7 (reqRest w)

/-- Why a number is no request. -/
inductive DecodeRefusal where
  /-- It has a bit above bit 20: every request word is 21 bits (R82). -/
  | widerThanARequest
  deriving DecidableEq, Repr

/-- Decoding any number: a number of 21 bits is a request word, a wider one is refused by name (R82, log 23). -/
def decodeNat (n : Nat) : Except DecodeRefusal Instr :=
  if n < 2 ^ 21 then .ok (decode (BitVec.ofNat 21 n)) else .error .widerThanARequest

/-! ## The encoder (R84): `{op, inv, telem, value}` with 0 in every ignored bit -/

/-- `{op, inv, telem, value}` (R70). -/
def reqPack (op : BitVec 3) (inv telem : Bool) (value : Operand) : ReqWord :=
  op ++ BitVec.ofBool inv ++ BitVec.ofBool telem ++ value

/-- The word of an operation, with 0 in every ignored bit (R75, R84); op 6 and 7 verbatim. -/
def encode : Instr → ReqWord
  | .encThr value telem inv => reqPack 0b000#3 inv telem value
  | .encThrClamp value telem inv => reqPack 0b001#3 inv telem value
  | .encThrMin telem inv => reqPack 0b010#3 inv telem 0#16
  | .encCmd code inv => reqPack 0b011#3 inv false code
  | .encRev reverse inv => reqPack 0b100#3 inv false ((BitVec.ofBool reverse).setWidth 16)
  | .decErpm value => reqPack 0b101#3 false false value
  | .illegalOp6 w => 0b110#3 ++ w
  | .illegalOp7 w => 0b111#3 ++ w

/-- The op number of an operation (R71). -/
def Instr.op : Instr → BitVec 3
  | .encThr _ _ _ => 0
  | .encThrClamp _ _ _ => 1
  | .encThrMin _ _ => 2
  | .encCmd _ _ => 3
  | .encRev _ _ => 4
  | .decErpm _ => 5
  | .illegalOp6 _ => 6
  | .illegalOp7 _ => 7

/-- The request bits a rule reads, by op: all but those R75's table lists as ignored. -/
def Instr.readMask : Instr → ReqWord
  | .encThr _ _ _ => 0x1FFFFF#21
  | .encThrClamp _ _ _ => 0x1FFFFF#21
  | .encThrMin _ _ => 0x1F0000#21
  | .encCmd _ _ => 0x1EFFFF#21
  | .encRev _ _ => 0x1E0001#21
  | .decErpm _ => 0x1CFFFF#21
  | .illegalOp6 _ => 0x1FFFFF#21
  | .illegalOp7 _ => 0x1FFFFF#21

/-- The decoder's answer to the `nbits` low bits of `w`, numbered as spec/opcode_table.json numbers them. -/
def decodeTableWord (nbits w : Nat) : Option Instr :=
  match decodeNat (w % 2 ^ nbits) with
  | .ok i => some i
  | .error _ => none

end Sys2Proof
end

