-- ==== Sys2Proof/Config.lean ====
section
/-! DEFINITION. What an implementation fixes: the source's constants (R8), the build's parameters (R9),
and the free values, each an opaque constant with no body. -/

namespace Sys2Proof.Config

/-- THROTTLE_MIN (R8). -/
def throttleMin : Nat := 48
/-- THROTTLE_MAX (R8). -/
def throttleMax : Nat := 2047
/-- ERPM_NO_DATA, the sentinel (R8). -/
def erpmNoData : Raw := 0xFFF#12
/-- ERPM_NUMERATOR (R8). -/
def erpmNumerator : Nat := 600000
/-- The first value above COMMAND_RANGE, 0 to 47 (R8). -/
def commandLimit : Nat := 48

end Sys2Proof.Config

namespace Sys2Proof

/-- The three parameters of R9, fixed when the block is built. A set of codes is written as its list in rising order. -/
structure Params where
  /-- P_CMD_VALID. -/
  cmdValid : List Nat
  /-- P_CODE_SPIN_NORMAL. -/
  spinNormal : Nat
  /-- P_CODE_SPIN_REVERSED. -/
  spinReversed : Nat
  deriving DecidableEq, Repr

/-- The defaults R9 takes: the 23 codes {0..11} ∪ {20..30} (C1; DESIGN CHOICE of the spec, log 4, unsafe for a build
with another set) and the spin codes 20 and 21 (PRESUMED, G2, log 5, unsafe for a build with others). -/
def Params.default : Params where
  cmdValid := [0, 1, 2, 3, 4, 5, 6, 7, 8, 9, 10, 11, 20, 21, 22, 23, 24, 25, 26, 27, 28, 29, 30]
  spinNormal := 20
  spinReversed := 21

end Sys2Proof

namespace Sys2Proof.Config

/-- The name of each field of the pipeline registers, so that each has free values of its own. -/
inductive RegField where
  | s1v | s1dec | s1st | s1err | s1pay | s1tel | s1inv | s1sent | s1raw
  | s2v | s2dec | s2st | s2err | s2pay | s2tel | s2csum | s2sent | s2period
  | s3v | s3st | s3data
  deriving DecidableEq, Repr

/-- A field's value after a reset edge, which "keeps its value or takes any value" (R37): free, and it may depend on the
old value (log 7, safe). -/
opaque resetBits (f : RegField) (draw : Nat) (w : Nat) (old : BitVec w) : BitVec w
/-- `resetBits` for a field of one bit (log 7, safe). -/
opaque resetBit (f : RegField) (draw : Nat) (old : Bool) : Bool
/-- A field's value before the first reset edge (R41, U5): free (log 10, safe). -/
opaque powerOnBits (f : RegField) (w : Nat) : BitVec w
/-- `powerOnBits` for a field of one bit (log 10, safe). -/
opaque powerOnBit (f : RegField) : Bool
/-- `req_word` in a cycle in which no line of the host's program drives it: free (log 9, safe). -/
opaque idleReqWord (draw : Nat) : ReqWord
/-- `rsp_word` while `rsp_valid = 0`: free (R34, U7, log 8, safe). -/
opaque idleRspWord (draw : Nat) (st : StatusCode) (data : Data) : RspWord
/-- ErpmDivide(0), which R160 does not state: free (log 11, safe). -/
opaque erpmDivideByZero : Data

end Sys2Proof.Config
end

