-- ==== Sys2Proof/Machine/State.lean ====
section
/-! DEFINITION. State: the three pipeline registers (R27 to R30), the build's parameters (R9), and the host that drives
the ports (R25, R86); reset (R40); what can stop a step. -/

namespace Sys2Proof.Machine

/-! ## The pipeline registers -/

/-- Register S1: what part A of an operation produces (R28). -/
structure S1 where
  v : Bool
  dec : Bool
  st : StatusCode
  err : Data
  pay : Payload
  tel : Bool
  inv : Bool
  sent : Bool
  raw : Raw
  deriving DecidableEq, Repr

/-- Register S2: what part B produces (R29). -/
structure S2 where
  v : Bool
  dec : Bool
  st : StatusCode
  err : Data
  pay : Payload
  tel : Bool
  csum : Nibble
  sent : Bool
  period : Period
  deriving DecidableEq, Repr

/-- Register S3: the finished response (R30). -/
structure S3 where
  v : Bool
  st : StatusCode
  data : Data
  deriving DecidableEq, Repr

/-! ## The host's side of the ports -/

/-- The values of the input ports in one cycle (R25). `clk` is not among them: a step is its rising edge. -/
structure PortsIn where
  rst : Bool
  reqValid : Bool
  reqWord : ReqWord
  rspReady : Bool
  deriving DecidableEq, Repr

/-- One line of what the host will do. The first four are R86's; `cycle` is the model's own and gives all input ports of
one cycle, so that every sequence of port values can be written (DESIGN CHOICE, log 1, safe). -/
inductive HostLine where
  /-- Drive `req_valid = 1` and this word until the edge that accepts it. -/
  | request (w : ReqWord)
  /-- `IDLE n`: n cycles with `req_valid = 0`. -/
  | idle (n : Nat)
  /-- `RESET n`: n cycles with `rst = 1` and `req_valid = 0`. -/
  | reset (n : Nat)
  /-- `RSP_READY b`: takes no cycle. -/
  | rspReady (b : Bool)
  /-- One cycle with exactly these port values. -/
  | cycle (p : PortsIn)
  deriving DecidableEq, Repr

/-- The host. -/
structure HostSide where
  /-- The lines it has still to do, the current one first. -/
  prog : List HostLine
  /-- What the last `RSP_READY` set (R86). -/
  rspReady : Bool
  /-- The request it offered in the cycle before, when that was not accepted (R233). -/
  held : Option ReqWord
  deriving DecidableEq, Repr

/-! ## The whole state -/

structure State where
  s1 : S1
  s2 : S2
  s3 : S3
  /-- The parameters of the build (R9). No step changes them (R237); they stand here so that every statement about a
  state is for every choice of them (DESIGN CHOICE, log 3, safe). -/
  params : Params
  host : HostSide
  /-- How many rising edges have passed: what the free values are applied to (the model's own field, log 20). -/
  draw : Nat
  deriving DecidableEq, Repr

/-- Why the machine stops with a fault. -/
inductive Fault where
  /-- The block offers a response with status 5, 6 or 7 while `rst = 0`. Raised by the step. R81: "never produced"; U8: a
  model treats it as a fault. Safe: no run from reset reaches it (log 13). A run that starts before the first reset edge may
(DESIGN CHOICE, log 27, safe). -/
  | reservedStatus
  deriving DecidableEq, Repr

/-- Why a step is refused. -/
inductive Refusal where
  /-- An operation that has no meaning yet. Raised by no arm of `exec` in this model. Safe. -/
  | notModelled (mnemonic : String)
  /-- The host changed or withdrew a request that was offered and not accepted. Raised by the step. R233, U9: a model
  "refuses such a run". Safe (log 12). Before the first reset edge too (DESIGN CHOICE, log 28, safe). -/
  | hostChangedRequest
  /-- The host's program holds `IDLE 0` or `RESET 0`, which R86 does not allow (n ≥ 1). Raised by the step. Safe (log 14). -/
  | illFormedLine
  deriving DecidableEq, Repr

/-! ## Reset and power-on -/

/-- S1 right after reset: a bubble (R40); its data fields are unspecified, and the model names all ones for them
(DESIGN CHOICE, log 6, unsafe). -/
def S1.afterReset : S1 where
  v := false
  dec := true
  st := 0x7#3
  err := 0xFFFFFFFF#32
  pay := 0x7FF#11
  tel := true
  inv := true
  sent := true
  raw := 0xFFF#12

/-- S2 right after reset: a bubble (R40); data fields as in `S1.afterReset` (DESIGN CHOICE, log 6, unsafe). -/
def S2.afterReset : S2 where
  v := false
  dec := true
  st := 0x7#3
  err := 0xFFFFFFFF#32
  pay := 0x7FF#11
  tel := true
  csum := 0xF#4
  sent := true
  period := 0xFFFF#16

/-- S3 right after reset: a bubble (R40); data fields as in `S1.afterReset` (DESIGN CHOICE, log 6, unsafe). -/
def S3.afterReset : S3 where
  v := false
  st := 0x7#3
  data := 0xFFFFFFFF#32

/-- The host at the start of a program (R86: "`rsp_ready` is 1 at the start of a program"). -/
def HostSide.start (prog : List HostLine) : HostSide where
  prog := prog
  rspReady := true
  held := none

/-- The machine right after reset (R40), built with R9's default parameters, the host having nothing to do. -/
def State.reset : State where
  s1 := S1.afterReset
  s2 := S2.afterReset
  s3 := S3.afterReset
  params := Params.default
  host := HostSide.start []
  draw := 0

/-- A program begins after the block has been reset (R86, R232). -/
def State.load (prog : List HostLine) : State :=
  { State.reset with host := HostSide.start prog }

/-- The machine before its first reset edge: every field, the valid bits included, is any value (R41, U5, log 10). -/
def State.powerOn (params : Params) (prog : List HostLine) : State where
  s1 := {
    v := Config.powerOnBit .s1v
    dec := Config.powerOnBit .s1dec
    st := Config.powerOnBits .s1st 3
    err := Config.powerOnBits .s1err 32
    pay := Config.powerOnBits .s1pay 11
    tel := Config.powerOnBit .s1tel
    inv := Config.powerOnBit .s1inv
    sent := Config.powerOnBit .s1sent
    raw := Config.powerOnBits .s1raw 12 }
  s2 := {
    v := Config.powerOnBit .s2v
    dec := Config.powerOnBit .s2dec
    st := Config.powerOnBits .s2st 3
    err := Config.powerOnBits .s2err 32
    pay := Config.powerOnBits .s2pay 11
    tel := Config.powerOnBit .s2tel
    csum := Config.powerOnBits .s2csum 4
    sent := Config.powerOnBit .s2sent
    period := Config.powerOnBits .s2period 16 }
  s3 := {
    v := Config.powerOnBit .s3v
    st := Config.powerOnBits .s3st 3
    data := Config.powerOnBits .s3data 32 }
  params := params
  host := HostSide.start prog
  draw := 0

end Sys2Proof.Machine
end

