-- ==== Sys2Proof/Machine/Operands.lean ====
section
/-! DEFINITION. Every operand form of the `value` field (R72), each an unsigned number with no scaling. -/

namespace Sys2Proof.Machine

/-- `zext_32` of the value field, the data of the operand errors (R80). -/
def operandData (value : Operand) : Data := value.setWidth 32

/-- A throttle the validating encoder accepts (R120). -/
def throttleInRange (value : Operand) : Bool :=
  !(decide (value.toNat < Config.throttleMin) || decide (Config.throttleMax < value.toNat))

/-- `clamp(v, lo, hi)` (R12). -/
def clamp (v lo hi : Nat) : Nat := if v < lo then lo else if hi < v then hi else v

/-- The clamped throttle, `t` of R121. -/
def clampedThrottle (value : Operand) : Nat := clamp value.toNat Config.throttleMin Config.throttleMax

/-- `value ∈ P_CMD_VALID` (R140). -/
def isCommand (p : Params) (value : Operand) : Bool := p.cmdValid.contains value.toNat

/-- The spin-direction code that the reverse flag `value[0]` chooses (R141). -/
def spinCode (p : Params) (reverse : Bool) : Nat := if reverse then p.spinReversed else p.spinNormal

/-- A value field that is a 12-bit reading: `value[15:12] = 0` (R160). -/
def isReading (value : Operand) : Bool := value.extractLsb' 12 4 == 0#4

/-- `value[11:0]`, the raw telemetry value (R72). -/
def rawOf (value : Operand) : Raw := value.extractLsb' 0 12

/-- `value[10:0]`, the payload bits of a throttle or a command code (R120, R140). -/
def payloadOf (value : Operand) : Payload := value.extractLsb' 0 11

/-- `mantissa = raw[8:0]` (R160). -/
def mantissa (raw : Raw) : BitVec 9 := raw.extractLsb' 0 9

/-- `exponent = raw[11:9]` (R160). -/
def exponent (raw : Raw) : BitVec 3 := raw.extractLsb' 9 3

end Sys2Proof.Machine
end

