-- ==== Sys2Proof/Machine/Datapath.lean ====
section
/-! DEFINITION. The internal datapath functions, which no op selects directly: Checksum (R100), Frame (R103), the
telemetry period (R160, R161) and ErpmDivide (R160, R162). -/

namespace Sys2Proof.Machine

/-- `packet = (pay << 1) | tel` (R100). -/
def packet (pay : Payload) (tel : Bool) : BitVec 12 :=
  (pay.setWidth 12 <<< 1) ||| (BitVec.ofBool tel).setWidth 12

/-- `fold = packet ^ (packet >> 4) ^ (packet >> 8)` (R100). -/
def xorFold (p : BitVec 12) : BitVec 12 := p ^^^ (p >>> 4) ^^^ (p >>> 8)

/-- `Checksum(pay, tel, inv)`: the fold's low nibble, complemented before masking when `inv = 1` (R100). -/
def checksum (pay : Payload) (tel inv : Bool) : Nibble :=
  let fold := xorFold (packet pay tel)
  if inv then (~~~fold).extractLsb' 0 4 else fold.extractLsb' 0 4

/-- `Frame(pay, tel, csum) = (pay << 5) | (tel << 4) | csum` (R103). -/
def frame (pay : Payload) (tel : Bool) (csum : Nibble) : Frame :=
  (pay.setWidth 16 <<< 5) ||| ((BitVec.ofBool tel).setWidth 16 <<< 4) ||| csum.setWidth 16

/-- `zext_32(frame)` (R80, R105). -/
def frameData (f : Frame) : Data := f.setWidth 32

/-- `period = mantissa << exponent`, 16 bits (R160, R161). -/
def periodOf (raw : Raw) : Period := (mantissa raw).setWidth 16 <<< (exponent raw).toNat

/-- `ErpmDivide(p) = (600000 + p / 2) / p`, both floor divisions on naturals (R160). R160 states no result for `p = 0`,
and only an entry that no run from reset holds asks for it: a free value (log 11, safe). -/
def erpmDivide (p : Period) : Data :=
  if p.toNat = 0 then Config.erpmDivideByZero
  else BitVec.ofNat 32 ((Config.erpmNumerator + p.toNat / 2) / p.toNat)

end Sys2Proof.Machine
end

