-- ==== Sys2Proof/Machine/Flags.lean ====
section
/-! DEFINITION. The block has no flags (R22): an operation's outcome is the status field of its own response. The status
codes (R79), the response word (R78), and the zero entries that `raise` fills (R31, R200). -/

namespace Sys2Proof.Machine

/-- The outcomes of R79. -/
inductive Status where
  | ok
  | invalidThrottle
  | malformedTelemetry
  | invalidCommand
  | illegalOp
  deriving DecidableEq, Repr

/-- `code(St)`: the number of a status (R79). -/
def Status.code : Status → StatusCode
  | .ok => 0
  | .invalidThrottle => 1
  | .malformedTelemetry => 2
  | .invalidCommand => 3
  | .illegalOp => 4

/-- 5, 6 and 7 are reserved and never produced (R79, R81). -/
def reservedCode (st : StatusCode) : Bool := decide (5 ≤ st.toNat)

/-- A response: the two fields of the response word (R78). -/
structure Response where
  status : StatusCode
  data : Data
  deriving DecidableEq, Repr

/-- `{status, data}` on `rsp_word[34:0]` (R78). -/
def Response.pack (r : Response) : RspWord := r.status ++ r.data

/-- `{OK, data}`. -/
def Response.ok (data : Data) : Response := ⟨Status.code .ok, data⟩

/-- `{code(St), data}` (R200). -/
def Response.error (st : Status) (data : Data) : Response := ⟨st.code, data⟩

end Sys2Proof.Machine
end

