-- ==== Sys2Proof/Machine/HostSide.lean ====
section
/-! DEFINITION. The host's program (R17, R86): which port values its current line drives, and what is left of it after
an edge. -/

namespace Sys2Proof.Machine

/-- Run the `RSP_READY` lines at the head, which take no cycle (R86): the lines left, and the `rsp_ready` they set. -/
def settle : List HostLine → Bool → List HostLine × Bool
  | [], b => ([], b)
  | .rspReady b :: rest, _ => settle rest b
  | .request w :: rest, b => (.request w :: rest, b)
  | .idle n :: rest, b => (.idle n :: rest, b)
  | .reset n :: rest, b => (.reset n :: rest, b)
  | .cycle p :: rest, b => (.cycle p :: rest, b)

/-- A cycle in which no line drives a request: `req_valid = 0` (R86), and `req_word` is whatever the host leaves on its
port, a free value (log 9, safe). -/
def quietCycle (rst rspReady : Bool) (draw : Nat) : PortsIn :=
  ⟨rst, false, Config.idleReqWord draw, rspReady⟩

/-- The port values a settled program drives in a cycle (R86). After the last line the host drives no request and
`rsp_ready` keeps its last value. -/
def drivenPorts (draw : Nat) : List HostLine × Bool → PortsIn
  | ([], b) => quietCycle false b draw
  | (.rspReady _ :: _, b) => quietCycle false b draw
  | (.request w :: _, b) => ⟨false, true, w, b⟩
  | (.idle _ :: _, b) => quietCycle false b draw
  | (.reset _ :: _, b) => quietCycle true b draw
  | (.cycle p :: _, _) => p

/-- What is left of a settled program after the edge (R86): a request line ends at the edge that accepts it, `IDLE n` and
`RESET n` at their n-th edge. -/
def linesAfter (accepted : Bool) : List HostLine → List HostLine
  | [] => []
  | .rspReady _ :: rest => rest
  | .request w :: rest => if accepted then rest else .request w :: rest
  | .idle n :: rest => if n ≤ 1 then rest else .idle (n - 1) :: rest
  | .reset n :: rest => if n ≤ 1 then rest else .reset (n - 1) :: rest
  | .cycle _ :: rest => rest

/-- R86's bound on a line: n ≥ 1. -/
def HostLine.wellFormed : HostLine → Bool
  | .request _ => true
  | .idle n => decide (1 ≤ n)
  | .reset n => decide (1 ≤ n)
  | .rspReady _ => true
  | .cycle _ => true

/-- The input ports in the current cycle (R25). -/
def State.ports (s : State) : PortsIn := drivenPorts s.draw (settle s.host.prog s.host.rspReady)

/-- R233's duty: a request offered and not accepted in the cycle before is still offered, unchanged. It is asked in every
state, before the first reset edge too (DESIGN CHOICE, log 28, safe). -/
def State.hostKeepsRequest (s : State) : Bool :=
  match s.host.held with
  | none => true
  | some w => s.ports.reqValid && s.ports.reqWord == w

/-- The current line of the host's program is one R86 allows. -/
def State.lineFits (s : State) : Bool := (settle s.host.prog s.host.rspReady).1.head?.all HostLine.wellFormed

/-- The host after the edge. It remembers an offered request that was not accepted (R233, log 12). -/
def State.hostAfter (s : State) (accepted : Bool) : HostSide where
  prog := linesAfter accepted (settle s.host.prog s.host.rspReady).1
  rspReady := (settle s.host.prog s.host.rspReady).2
  held := if s.ports.reqValid && !accepted then some s.ports.reqWord else none

end Sys2Proof.Machine
end

