-- ==== Sys2Proof/Machine/Ops.lean ====
section
/-! DEFINITION. The operations all meanings share: the entries part A fills (R31), `raise` (R14, R200), stages B and C
(R32, R33), the ports (R34 to R36) and the clock edge (R37 to R39). The block takes no traps and returns from none (R207,
R208): what other machines do by exception entry, this one does by `raise`. -/

namespace Sys2Proof.Machine

/-! ## The entries part A writes. Every field the part does not name is 0 (R31). -/

/-- An S1 entry with every field 0; the valid bit is the edge's to set (R31). -/
def S1.zero : S1 := ⟨false, false, 0#3, 0#32, 0#11, false, false, false, 0#12⟩

/-- `raise St(d)` in part A: `st <- code(St)`, `err <- d`, every other field 0 (R31, R200). -/
def S1.raise (st : Status) (data : Data) : S1 := { S1.zero with st := st.code, err := data }

/-- Part A of an encode operation that raises nothing: `dec <- 0`, and payload, telemetry bit and polarity (R120 to R141). -/
def S1.encode (pay : Payload) (tel inv : Bool) : S1 := { S1.zero with pay := pay, tel := tel, inv := inv }

/-- Part A of a decode that raises nothing: `dec <- 1`, the raw value and its sentinel bit (R160). -/
def S1.reading (raw : Raw) (sent : Bool) : S1 := { S1.zero with dec := true, raw := raw, sent := sent }

/-! ## Stage B (R32) -/

/-- What stage B copies from S1, with `csum` and `period` 0. -/
def S2.copy (e : S1) : S2 := ⟨false, e.dec, e.st, e.err, e.pay, e.tel, 0#4, e.sent, 0#16⟩

/-- `raise St(d)` in part B: it sets `S2.st` and `S2.err` (R32). -/
def S2.raise (e : S2) (st : Status) (data : Data) : S2 := { e with st := st.code, err := data }

/-- Part B of DEC_ERPM: the period, or MALFORMED_TELEMETRY when it is 0 (R160). -/
def periodPart (raw : Raw) (e : S2) : S2 :=
  if periodOf raw = 0#16 then e.raise .malformedTelemetry (raw.setWidth 32) else { e with period := periodOf raw }

/-- Stage B: the next contents of S2, but for its valid bit (R32). -/
def stageB (e : S1) : S2 :=
  if e.st = Status.code .ok then
    if e.dec then
      if e.sent then S2.copy e else periodPart e.raw (S2.copy e)
    else { S2.copy e with csum := checksum e.pay e.tel e.inv }
  else S2.copy e

/-! ## Stage C (R33) -/

/-- The data word stage C computes (R33). -/
def stageCData (e : S2) : Data :=
  if e.st = Status.code .ok then
    if e.dec then
      if e.sent then 0#32 else erpmDivide e.period
    else frameData (frame e.pay e.tel e.csum)
  else e.err

/-- Stage C: the next contents of S3, but for its valid bit (R33). -/
def stageC (e : S2) : S3 := ⟨false, e.st, stageCData e⟩

/-! ## The ports -/

/-- `stall = S3.v and not rsp_ready` (R36). -/
def State.stall (s : State) : Bool := s.s3.v && !s.ports.rspReady

/-- `req_ready = (rst = 0) and (stall = 0)` (R35). -/
def State.reqReady (s : State) : Bool := !s.ports.rst && !s.stall

/-- `rsp_valid = S3.v` (R34). -/
def State.rspValid (s : State) : Bool := s.s3.v

/-- The response S3 holds. -/
def S3.response (e : S3) : Response := ⟨e.st, e.data⟩

/-- `rsp_word`: S3's status and data; while `S3.v = 0` a free value (R34, U7, log 8). -/
def State.rspWord (s : State) : RspWord :=
  if s.s3.v then s.s3.response.pack else Config.idleRspWord s.draw s.s3.st s.s3.data

/-- The request handshake: the word accepted at this cycle's edge, if one is (R53). -/
def State.accepted (s : State) : Option ReqWord :=
  if s.ports.reqValid && s.reqReady then some s.ports.reqWord else none

/-- The response handshake: the response transferred at this cycle's edge, if one is (R54). -/
def State.transferred (s : State) : Option Response :=
  if s.s3.v && s.ports.rspReady && !s.ports.rst then some s.s3.response else none

/-! ## The clock edge -/

/-- An edge with `rst = 1`: the valid bits are 0, and every other field "keeps its value or takes any value" (R37): free
values that may depend on the old ones (log 7, safe). -/
def State.resetEdge (s : State) : State :=
  { s with
    s1 := {
      v := false
      dec := Config.resetBit .s1dec s.draw s.s1.dec
      st := Config.resetBits .s1st s.draw 3 s.s1.st
      err := Config.resetBits .s1err s.draw 32 s.s1.err
      pay := Config.resetBits .s1pay s.draw 11 s.s1.pay
      tel := Config.resetBit .s1tel s.draw s.s1.tel
      inv := Config.resetBit .s1inv s.draw s.s1.inv
      sent := Config.resetBit .s1sent s.draw s.s1.sent
      raw := Config.resetBits .s1raw s.draw 12 s.s1.raw }
    s2 := {
      v := false
      dec := Config.resetBit .s2dec s.draw s.s2.dec
      st := Config.resetBits .s2st s.draw 3 s.s2.st
      err := Config.resetBits .s2err s.draw 32 s.s2.err
      pay := Config.resetBits .s2pay s.draw 11 s.s2.pay
      tel := Config.resetBit .s2tel s.draw s.s2.tel
      csum := Config.resetBits .s2csum s.draw 4 s.s2.csum
      sent := Config.resetBit .s2sent s.draw s.s2.sent
      period := Config.resetBits .s2period s.draw 16 s.s2.period }
    s3 := {
      v := false
      st := Config.resetBits .s3st s.draw 3 s.s3.st
      data := Config.resetBits .s3data s.draw 32 s.s3.data } }

/-- An edge with `rst = 0` and no stall: all three stages advance together (R38). `a` is `StageA(req_word)`, `valid` is
`req_valid`. -/
def State.advance (s : State) (valid : Bool) (a : S1) : State :=
  { s with
    s3 := { stageC s.s2 with v := s.s2.v }
    s2 := { stageB s.s1 with v := s.s1.v }
    s1 := { a with v := valid } }

/-- What one rising edge does to the block: reset (R37), advance (R38) or hold (R39). -/
def State.blockEdge (s : State) (valid : Bool) (a : S1) : State :=
  if s.ports.rst then s.resetEdge
  else if s.stall then s
  else s.advance valid a

/-- A rising edge: the block's move, the host's (R86), and the free values' counter. -/
def clockEdge (valid : Bool) (a : S1) (s : State) : State :=
  { s.blockEdge valid a with
    host := s.hostAfter (s.ports.reqValid && s.reqReady)
    draw := s.draw + 1 }

/-! ## What stops a step -/

/-- Outcomes of a step that is not run: the host is outside the spec (R233, R86), or a valid response has a reserved
status (R81, U8). -/
inductive Stop where
  | refuse (r : Refusal)
  | fault (f : Fault)
  deriving DecidableEq, Repr

/-- The host's duties first, then the block's own promise, which holds while `rst = 0` (log 12, 13, 14). Before the first
reset edge too, where R41 lets S3 hold anything, a reserved status offered with `rst = 0` ends the run (DESIGN CHOICE,
log 27, safe), and a host that changes or withdraws an unaccepted request is refused (DESIGN CHOICE, log 28, safe). -/
def State.stopped (s : State) : Option Stop :=
  if !s.hostKeepsRequest then some (.refuse .hostChangedRequest)
  else if !s.lineFits then some (.refuse .illFormedLine)
  else if !s.ports.rst && s.s3.v && reservedCode s.s3.st then some (.fault .reservedStatus)
  else none

end Sys2Proof.Machine
end

