-- ==== Sys2Proof/Machine/Command.lean ====
section
/-! DEFINITION. The command family: ENC_CMD (R140), ENC_REV (R141). -/

namespace Sys2Proof.Machine

/-- Part A of ENC_CMD: the telemetry bit is forced to 1 (R140). -/
def partAEncCmd (p : Params) (code : Operand) (inv : Bool) : S1 :=
  if isCommand p code then S1.encode (payloadOf code) true inv
  else S1.raise .invalidCommand (operandData code)

/-- ENC_CMD (R140). -/
def execEncCmd (code : Operand) (inv : Bool) (s : State) : Host.Outcome State Fault Refusal :=
  .next (clockEdge true (partAEncCmd s.params code inv) s)

/-- Part A of ENC_REV: the payload is the chosen spin code's low 11 bits, the telemetry bit 1; the block does not check
membership again (R141). -/
def partAEncRev (p : Params) (reverse inv : Bool) : S1 :=
  S1.encode (BitVec.ofNat 11 (spinCode p reverse)) true inv

/-- ENC_REV (R141). -/
def execEncRev (reverse inv : Bool) (s : State) : Host.Outcome State Fault Refusal :=
  .next (clockEdge true (partAEncRev s.params reverse inv) s)

end Sys2Proof.Machine
end

