-- ==== Sys2Proof/Machine/Illegal.lean ====
section
/-! DEFINITION. The illegal ops 6 and 7: accepted like any request, and answered with ILLEGAL_OP (R76, R204). -/

namespace Sys2Proof.Machine

/-- Part A of op 6: the whole request word is echoed (R204). -/
def partAIllegalOp6 (w : BitVec 18) : S1 := S1.raise .illegalOp ((encode (.illegalOp6 w)).setWidth 32)

/-- Op 6 (R204). -/
def execIllegalOp6 (w : BitVec 18) (s : State) : Host.Outcome State Fault Refusal :=
  .next (clockEdge true (partAIllegalOp6 w) s)

/-- Part A of op 7: the whole request word is echoed (R204). -/
def partAIllegalOp7 (w : BitVec 18) : S1 := S1.raise .illegalOp ((encode (.illegalOp7 w)).setWidth 32)

/-- Op 7 (R204). -/
def execIllegalOp7 (w : BitVec 18) (s : State) : Host.Outcome State Fault Refusal :=
  .next (clockEdge true (partAIllegalOp7 w) s)

end Sys2Proof.Machine
end

