-- ==== Sys2Proof/Machine/Telemetry.lean ====
section
/-! DEFINITION. The eRPM telemetry decode: DEC_ERPM (R160). Its part B is `periodPart` in stage B, its part C
`erpmDivide` in stage C. -/

namespace Sys2Proof.Machine

/-- Part A of DEC_ERPM: the width check, then the sentinel test (R160, R205). -/
def partADecErpm (value : Operand) : S1 :=
  if isReading value then S1.reading (rawOf value) (rawOf value == Config.erpmNoData)
  else S1.raise .malformedTelemetry (operandData value)

/-- DEC_ERPM (R160). -/
def execDecErpm (value : Operand) (s : State) : Host.Outcome State Fault Refusal :=
  .next (clockEdge true (partADecErpm value) s)

end Sys2Proof.Machine
end

