-- ==== Sys2Proof/Machine/Throttle.lean ====
section
/-! DEFINITION. The throttle family: ENC_THR (R120), ENC_THR_CLAMP (R121), ENC_THR_MIN (R122). Part A of each, and its
meaning: the rising edge at which the block is offered the request. Parts B and C are stages B and C. -/

namespace Sys2Proof.Machine

/-- Part A of ENC_THR (R120). -/
def partAEncThr (value : Operand) (telem inv : Bool) : S1 :=
  if throttleInRange value then S1.encode (payloadOf value) telem inv
  else S1.raise .invalidThrottle (operandData value)

/-- ENC_THR (R120). -/
def execEncThr (value : Operand) (telem inv : Bool) (s : State) : Host.Outcome State Fault Refusal :=
  .next (clockEdge true (partAEncThr value telem inv) s)

/-- Part A of ENC_THR_CLAMP (R121). -/
def partAEncThrClamp (value : Operand) (telem inv : Bool) : S1 :=
  S1.encode (BitVec.ofNat 11 (clampedThrottle value)) telem inv

/-- ENC_THR_CLAMP (R121). -/
def execEncThrClamp (value : Operand) (telem inv : Bool) (s : State) : Host.Outcome State Fault Refusal :=
  .next (clockEdge true (partAEncThrClamp value telem inv) s)

/-- Part A of ENC_THR_MIN (R122). -/
def partAEncThrMin (telem inv : Bool) : S1 := S1.encode (BitVec.ofNat 11 Config.throttleMin) telem inv

/-- ENC_THR_MIN (R122). -/
def execEncThrMin (telem inv : Bool) (s : State) : Host.Outcome State Fault Refusal :=
  .next (clockEdge true (partAEncThrMin telem inv) s)

end Sys2Proof.Machine
end

