-- ==== Sys2Proof/Machine/StageA.lean ====
section
/-! DEFINITION. Stage A as a function of the request word (R31), and the edge of a cycle in which no request is offered:
stage A "still runs" on whatever the port holds, and the result lands in a bubble (R38). -/

namespace Sys2Proof.Machine

/-- Part A of an operation (R31). -/
def partA (p : Params) : Instr → S1
  | .encThr value telem inv => partAEncThr value telem inv
  | .encThrClamp value telem inv => partAEncThrClamp value telem inv
  | .encThrMin telem inv => partAEncThrMin telem inv
  | .encCmd code inv => partAEncCmd p code inv
  | .encRev reverse inv => partAEncRev p reverse inv
  | .decErpm value => partADecErpm value
  | .illegalOp6 w => partAIllegalOp6 w
  | .illegalOp7 w => partAIllegalOp7 w

/-- Stage A: the next contents of S1, but for its valid bit (R31). -/
def stageA (p : Params) (w : ReqWord) : S1 := partA p (decode w)

/-- The edge of a cycle with `req_valid = 0` (R37 to R39; log 16). -/
def bubbleEdge (s : State) : State := clockEdge false (stageA s.params s.ports.reqWord) s

end Sys2Proof.Machine
end

