-- ==== Sys2Proof/Machine/Dispatch.lean ====
section
/-! DEFINITION. One arm per operation (R31, R71): the rising edge at which the block is offered that request. -/

namespace Sys2Proof.Machine

def exec (i : Instr) (s : State) : Host.Outcome State Fault Refusal :=
  match i with
  | .encThr value telem inv => Sys2Proof.Machine.execEncThr value telem inv s
  | .encThrClamp value telem inv => Sys2Proof.Machine.execEncThrClamp value telem inv s
  | .encThrMin telem inv => Sys2Proof.Machine.execEncThrMin telem inv s
  | .encCmd code inv => Sys2Proof.Machine.execEncCmd code inv s
  | .encRev reverse inv => Sys2Proof.Machine.execEncRev reverse inv s
  | .decErpm value => Sys2Proof.Machine.execDecErpm value s
  | .illegalOp6 w => Sys2Proof.Machine.execIllegalOp6 w s
  | .illegalOp7 w => Sys2Proof.Machine.execIllegalOp7 w s

end Sys2Proof.Machine
end

