-- ==== Sys2Proof/Machine/Step.lean ====
section
/-! DEFINITION. The step: one rising edge of `clk` (R25, R37 to R39). A request on the port is decoded and its operation
run; with no request the pipeline takes in a bubble. -/

namespace Sys2Proof.Machine

def step (s : State) : Host.Outcome State Fault Refusal :=
  match s.stopped with
  | some (.refuse r) => .refused r
  | some (.fault f) => .fault f
  | none => if s.ports.reqValid then exec (decode s.ports.reqWord) s else .next (bubbleEdge s)

/-- The one cycle that offers a request so that its edge accepts it: `rst = 0`, `req_valid = 1`, `rsp_ready = 1`. -/
def offerCycle (w : ReqWord) : PortsIn := ⟨false, true, w, true⟩

/-- `s` with the request of the `nbits` low bits of `w` offered in the very next cycle, in a way that its edge accepts it
(log 2). -/
def State.withFetchWord (s : State) (nbits w : Nat) : State :=
  { s with
    host := { s.host with
      prog := .cycle (offerCycle (BitVec.ofNat 21 (w % 2 ^ nbits))) :: s.host.prog
      held := none } }

end Sys2Proof.Machine
end

