-- ==== Sys2Proof/Machine/Pure.lean ====
section
/-! DEFINITION. `Op`, the pure function of a request word that its response is (R15, R56), written from the "Pure
function" item of each operation's rule and not from its parts A, B and C. -/

namespace Sys2Proof.Machine

/-- `{OK, zext_32(Frame(pay, tel, Checksum(pay, tel, inv)))}`. -/
def pureFrame (pay : Payload) (tel inv : Bool) : Response :=
  .ok (frameData (frame pay tel (checksum pay tel inv)))

/-- R120. -/
def pureEncThr (value : Operand) (telem inv : Bool) : Response :=
  if 48 ≤ value.toNat ∧ value.toNat ≤ 2047 then pureFrame (BitVec.ofNat 11 value.toNat) telem inv
  else .error .invalidThrottle (value.setWidth 32)

/-- R121. -/
def pureEncThrClamp (value : Operand) (telem inv : Bool) : Response :=
  pureFrame (BitVec.ofNat 11 (clamp value.toNat 48 2047)) telem inv

/-- R122. -/
def pureEncThrMin (telem inv : Bool) : Response := pureFrame 48#11 telem inv

/-- R140. -/
def pureEncCmd (p : Params) (code : Operand) (inv : Bool) : Response :=
  if code.toNat ∈ p.cmdValid then pureFrame (BitVec.ofNat 11 code.toNat) true inv
  else .error .invalidCommand (code.setWidth 32)

/-- R141: "the response of `ENC_CMD code, inv` for the code chosen". A code that R9 allows is in P_CMD_VALID; the block
does not check it, so this is the frame of its low 11 bits. -/
def pureEncRev (p : Params) (reverse inv : Bool) : Response :=
  pureFrame (BitVec.ofNat 11 (if reverse then p.spinReversed else p.spinNormal)) true inv

/-- R160, its four cases in order; `r` is the value field as a number. -/
def pureDecErpm (value : Operand) : Response :=
  let r := value.toNat
  if r / 2 ^ 12 ≠ 0 then .error .malformedTelemetry (BitVec.ofNat 32 r)
  else if r = 0x0FFF then .ok 0#32
  else
    let p := r % 2 ^ 9 * 2 ^ (r / 2 ^ 9 % 2 ^ 3)
    if p = 0 then .error .malformedTelemetry (BitVec.ofNat 32 r)
    else .ok (BitVec.ofNat 32 ((600000 + p / 2) / p))

/-- R204: the whole request word. -/
def pureIllegal (w : ReqWord) : Response := .error .illegalOp (w.setWidth 32)

/-- The response of an operation. -/
def pureResponse (p : Params) : Instr → Response
  | .encThr value telem inv => pureEncThr value telem inv
  | .encThrClamp value telem inv => pureEncThrClamp value telem inv
  | .encThrMin telem inv => pureEncThrMin telem inv
  | .encCmd code inv => pureEncCmd p code inv
  | .encRev reverse inv => pureEncRev p reverse inv
  | .decErpm value => pureDecErpm value
  | .illegalOp6 w => pureIllegal (encode (.illegalOp6 w))
  | .illegalOp7 w => pureIllegal (encode (.illegalOp7 w))

/-- `Op(r)` of R56. -/
def opResponse (p : Params) (w : ReqWord) : Response := pureResponse p (decode w)

end Sys2Proof.Machine
end

