-- ==== Sys2Proof/Machine/Asm.lean ====
section
/-! DEFINITION. The textual syntax: source lines (R84), pseudo-instructions and directives (R86), literals and the
disassembler (R85). No step reads it; it makes and prints the host's lines. -/

namespace Sys2Proof.Machine

/-- A source line of R84 and R86, its operands as written. -/
inductive Source where
  | encThr (value telem inv : Nat)
  | encThrClamp (value telem inv : Nat)
  | encThrMin (telem inv : Nat)
  | encCmd (code inv : Nat)
  | encRev (reverse inv : Nat)
  | decErpm (raw : Nat)
  | req (word : Nat)
  | encSpinNormal (inv : Nat)
  | encSpinReversed (inv : Nat)
  | idle (n : Nat)
  | reset (n : Nat)
  | rspReady (b : Nat)
  deriving DecidableEq, Repr

/-- R86's pseudo-instructions as the request lines they stand for. -/
def Source.expand : Source → Source
  | .encSpinNormal inv => .encRev 0 inv
  | .encSpinReversed inv => .encRev 1 inv
  | .encThr value telem inv => .encThr value telem inv
  | .encThrClamp value telem inv => .encThrClamp value telem inv
  | .encThrMin telem inv => .encThrMin telem inv
  | .encCmd code inv => .encCmd code inv
  | .encRev reverse inv => .encRev reverse inv
  | .decErpm raw => .decErpm raw
  | .req word => .req word
  | .idle n => .idle n
  | .reset n => .reset n
  | .rspReady b => .rspReady b

/-- An operand fits the 16-bit value field (R84). -/
def fitsValue (n : Nat) : Bool := decide (n < 2 ^ 16)
/-- A telem, inv, reverse or `RSP_READY` operand is 0 or 1 (R84). -/
def fitsBit (n : Nat) : Bool := decide (n < 2)
/-- A `.req` operand fits the request word (R84; DEDUCED, log 17). -/
def fitsReq (n : Nat) : Bool := decide (n < 2 ^ 21)
/-- `n ≥ 1` (R86). -/
def fitsCount (n : Nat) : Bool := decide (1 ≤ n)

/-- Every operand fits its field; otherwise the line is an assembly error (R84, R86). -/
def Source.fits : Source → Bool
  | .encThr value telem inv => fitsValue value && fitsBit telem && fitsBit inv
  | .encThrClamp value telem inv => fitsValue value && fitsBit telem && fitsBit inv
  | .encThrMin telem inv => fitsBit telem && fitsBit inv
  | .encCmd code inv => fitsValue code && fitsBit inv
  | .encRev reverse inv => fitsBit reverse && fitsBit inv
  | .decErpm raw => fitsValue raw
  | .req word => fitsReq word
  | .encSpinNormal inv => fitsBit inv
  | .encSpinReversed inv => fitsBit inv
  | .idle n => fitsCount n
  | .reset n => fitsCount n
  | .rspReady b => fitsBit b

/-- A `0` or `1` operand as a bit. -/
def toBit (n : Nat) : Bool := n == 1

/-- The host's line that an expanded source line stands for, its operands fitting (R84, R86). -/
def Source.line : Source → HostLine
  | .encThr value telem inv => .request (encode (.encThr (BitVec.ofNat 16 value) (toBit telem) (toBit inv)))
  | .encThrClamp value telem inv => .request (encode (.encThrClamp (BitVec.ofNat 16 value) (toBit telem) (toBit inv)))
  | .encThrMin telem inv => .request (encode (.encThrMin (toBit telem) (toBit inv)))
  | .encCmd code inv => .request (encode (.encCmd (BitVec.ofNat 16 code) (toBit inv)))
  | .encRev reverse inv => .request (encode (.encRev (toBit reverse) (toBit inv)))
  | .decErpm raw => .request (encode (.decErpm (BitVec.ofNat 16 raw)))
  | .req word => .request (BitVec.ofNat 21 word)
  | .encSpinNormal inv => .request (encode (.encRev false (toBit inv)))
  | .encSpinReversed inv => .request (encode (.encRev true (toBit inv)))
  | .idle n => .idle n
  | .reset n => .reset n
  | .rspReady b => .rspReady (toBit b)

/-- Assemble one line; none is an assembly error (R84). -/
def assemble (l : Source) : Option HostLine := if l.fits then some l.expand.line else none

/-- Assemble a program; none if a line is an assembly error. -/
def assembleAll (ls : List Source) : Option (List HostLine) := ls.mapM assemble

/-- The source line of a request word: R84's syntax when every ignored bit is 0, and otherwise, and for op 6 and 7,
`.req` (R85). -/
def disassemble (w : ReqWord) : Source :=
  match decode w with
  | .encThr value telem inv => .encThr value.toNat telem.toNat inv.toNat
  | .encThrClamp value telem inv => .encThrClamp value.toNat telem.toNat inv.toNat
  | .encThrMin telem inv => if encode (decode w) = w then .encThrMin telem.toNat inv.toNat else .req w.toNat
  | .encCmd code inv => if encode (decode w) = w then .encCmd code.toNat inv.toNat else .req w.toNat
  | .encRev reverse inv => if encode (decode w) = w then .encRev reverse.toNat inv.toNat else .req w.toNat
  | .decErpm value => if encode (decode w) = w then .decErpm value.toNat else .req w.toNat
  | .illegalOp6 _ => .req w.toNat
  | .illegalOp7 _ => .req w.toNat

/-! ## Text. What R84 and R85 leave open (spaces, comments, the case of hex digits) is fixed by log 19. -/

/-- The digits of R85's literals, each at the place of its value; those of base 10 are the first ten. -/
def digitChars : List Char := "0123456789ABCDEF".toList

/-- The value of a digit of a base up to 16; a letter in either case (log 19). -/
def digitValue (base : Nat) (c : Char) : Option Nat := (digitChars.take base).idxOf? c.toUpper

/-- The number that digits of a base spell, most significant first. -/
def readDigits (base : Nat) (cs : List Char) : Option Nat :=
  cs.foldlM (fun n c => (digitValue base c).map (n * base + ·)) 0

/-- A number in decimal, or in hexadecimal with the prefix `0x` (R85); at least one digit. -/
def readNumber : List Char → Option Nat
  | [] => none
  | '0' :: 'x' :: c :: rest => readDigits 16 (c :: rest)
  | c :: rest => readDigits 10 (c :: rest)

/-- A Boolean: `0` or `1` and no other spelling of them (R85). -/
def readBoolean : List Char → Option Nat
  | ['0'] => some 0
  | ['1'] => some 1
  | _ => none

/-- R85's two kinds of literal. -/
inductive Literal where
  | number
  | boolean
  deriving DecidableEq, Repr

/-- Read a literal of the kind its place in the line asks for. -/
def Literal.read : Literal → List Char → Option Nat
  | .number, cs => readNumber cs
  | .boolean, cs => readBoolean cs

/-- Drop the spaces at both ends. -/
def trim (cs : List Char) : List Char :=
  ((cs.dropWhile (· == ' ')).reverse.dropWhile (· == ' ')).reverse

/-- Split at a separator. -/
def splitAt (sep : Char) : List Char → List (List Char)
  | [] => [[]]
  | c :: rest =>
    match splitAt sep rest with
    | [] => [[c]]
    | p :: ps => if c == sep then [] :: p :: ps else (c :: p) :: ps

/-- The kinds of the operands of each mnemonic of R84 and R86: telem, inv, reverse and b are Booleans, the rest numbers. -/
def operandKinds (name : String) : List Literal :=
  match name with
  | "ENC_THR" => [.number, .boolean, .boolean]
  | "ENC_THR_CLAMP" => [.number, .boolean, .boolean]
  | "ENC_THR_MIN" => [.boolean, .boolean]
  | "ENC_CMD" => [.number, .boolean]
  | "ENC_REV" => [.boolean, .boolean]
  | "DEC_ERPM" => [.number]
  | ".req" => [.number]
  | "ENC_SPIN_NORMAL" => [.boolean]
  | "ENC_SPIN_REVERSED" => [.boolean]
  | "IDLE" => [.number]
  | "RESET" => [.number]
  | "RSP_READY" => [.boolean]
  | _ => []

/-- Read operands of the given kinds, as many as there are kinds. -/
def readOperands : List Literal → List (List Char) → Option (List Nat)
  | [], [] => some []
  | kind :: kinds, cs :: rest =>
    match kind.read cs, readOperands kinds rest with
    | some n, some ns => some (n :: ns)
    | _, _ => none
  | _, _ => none

/-- Read one source line: a mnemonic, then its operands separated by commas; what follows a `;` is a comment. None if it is
no line of R84 or R86. -/
def parseLine (text : String) : Option Source :=
  let body := trim (text.toList.takeWhile (· != ';'))
  let name := String.ofList (body.takeWhile (· != ' '))
  let operands := (splitAt ',' (body.dropWhile (· != ' '))).map trim
  match name, readOperands (operandKinds name) operands with
  | "ENC_THR", some [value, telem, inv] => some (.encThr value telem inv)
  | "ENC_THR_CLAMP", some [value, telem, inv] => some (.encThrClamp value telem inv)
  | "ENC_THR_MIN", some [telem, inv] => some (.encThrMin telem inv)
  | "ENC_CMD", some [code, inv] => some (.encCmd code inv)
  | "ENC_REV", some [reverse, inv] => some (.encRev reverse inv)
  | "DEC_ERPM", some [raw] => some (.decErpm raw)
  | ".req", some [word] => some (.req word)
  | "ENC_SPIN_NORMAL", some [inv] => some (.encSpinNormal inv)
  | "ENC_SPIN_REVERSED", some [inv] => some (.encSpinReversed inv)
  | "IDLE", some [n] => some (.idle n)
  | "RESET", some [n] => some (.reset n)
  | "RSP_READY", some [b] => some (.rspReady b)
  | _, _ => none

/-- A hexadecimal digit's character, in upper case (log 19). -/
def hexChar (n : Nat) : Char := digitChars.getD n '0'

/-- `n` low hexadecimal digits of a number, most significant first. -/
def hexDigits : Nat → Nat → List Char
  | 0, _ => []
  | n + 1, v => hexDigits n (v / 16) ++ [hexChar (v % 16)]

/-- The decimal digits of a number below 10 ^ fuel, with no leading zero. -/
def decimalDigits : Nat → Nat → List Char
  | 0, _ => []
  | fuel + 1, v => (if v / 10 = 0 then [] else decimalDigits fuel (v / 10)) ++ [hexChar (v % 10)]

/-- An operand as the disassembler prints it: in decimal (log 19). -/
def printNumber (n : Nat) : String := String.ofList (decimalDigits 8 n)

/-- A mnemonic and its operands (R84). -/
def printOps (name : String) (ops : List Nat) : String :=
  name ++ " " ++ String.intercalate ", " (ops.map printNumber)

/-- Print a source line; `.req 0x` is followed by six hexadecimal digits (R85). -/
def printLine : Source → String
  | .encThr value telem inv => printOps "ENC_THR" [value, telem, inv]
  | .encThrClamp value telem inv => printOps "ENC_THR_CLAMP" [value, telem, inv]
  | .encThrMin telem inv => printOps "ENC_THR_MIN" [telem, inv]
  | .encCmd code inv => printOps "ENC_CMD" [code, inv]
  | .encRev reverse inv => printOps "ENC_REV" [reverse, inv]
  | .decErpm raw => printOps "DEC_ERPM" [raw]
  | .req word => ".req 0x" ++ String.ofList (hexDigits 6 word)
  | .encSpinNormal inv => printOps "ENC_SPIN_NORMAL" [inv]
  | .encSpinReversed inv => printOps "ENC_SPIN_REVERSED" [inv]
  | .idle n => printOps "IDLE" [n]
  | .reset n => printOps "RESET" [n]
  | .rspReady b => printOps "RSP_READY" [b]

end Sys2Proof.Machine
end

