-- ==== Sys2Proof/WellFormed.lean ====
section
/-! DEFINITION. What the spec asks of the terms that are not right by their types. Every `Instr` is well formed: its
operands have their fields' widths, and every value of them is a legal encoding (R77). The checks are on the build's
parameters (R9) and on source lines (R84, R86); the check on the host's lines (R86) is HostLine.wellFormed. -/

namespace Sys2Proof

/-- R9: P_CMD_VALID ⊆ {0..47}. -/
def Params.codesInRange (p : Params) : Bool := p.cmdValid.all fun c => decide (c < Config.commandLimit)

/-- P_CMD_VALID is written as a set: each code once, rising. -/
def Params.codesRising (p : Params) : Bool := decide (p.cmdValid.Pairwise (· < ·))

/-- R9: the spin codes are in P_CMD_VALID and differ from each other. -/
def Params.spinsValid (p : Params) : Bool :=
  p.cmdValid.contains p.spinNormal && p.cmdValid.contains p.spinReversed && p.spinNormal != p.spinReversed

/-- The constraints of R9 on a build. -/
def Params.wellFormed (p : Params) : Bool := p.codesInRange && p.codesRising && p.spinsValid

namespace Machine

/-- A source line the assembler accepts (R84, R86). -/
def Source.wellFormed (l : Source) : Bool := l.fits

end Machine
end Sys2Proof
end

