-- ==== Sys2Proof/Safety.lean ====
section
/-! DEFINITION. What claims are stated in: the requests in flight (R56, R61), a run as its host sees it (R53, R54), the
invariant that every entry in flight is that of an accepted request (R27, R56), what the ports can show (R42), and a host
that follows its program (R86, R233). -/

namespace Sys2Proof.Machine

/-! ## In flight -/

/-- The response that an entry in S2 ends in (R33). -/
def S2.finish (e : S2) : Response := (stageC e).response

/-- The response that an entry in S1 ends in (R32, R33). -/
def S1.finish (e : S1) : Response := (stageB e).finish

/-- The responses of the requests in flight, the oldest first: one per valid stage (R27, R61). -/
def State.inFlight (s : State) : List Response :=
  (if s.s3.v then [s.s3.response] else []) ++ (if s.s2.v then [s.s2.finish] else []) ++
    (if s.s1.v then [s.s1.finish] else [])

/-- Every stage is valid (R61). -/
def State.full (s : State) : Bool := s.s1.v && s.s2.v && s.s3.v

/-! ## Runs -/

/-- What a run of the machine shows its host: the requests accepted and the responses transferred, in order, whether an
edge had `rst = 1`, and the state it ends in. -/
structure Observed where
  accepted : List ReqWord
  responses : List Response
  sawReset : Bool
  final : State
  deriving DecidableEq, Repr

/-- `k` steps as the host sees them; none if one stops. -/
def observe : Nat → State → Option Observed
  | 0, s => some ⟨[], [], false, s⟩
  | k + 1, s =>
    match step s with
    | .next t =>
      match observe k t with
      | some o => some ⟨s.accepted.toList ++ o.accepted, s.transferred.toList ++ o.responses,
          s.ports.rst || o.sawReset, o.final⟩
      | none => none
    | .fault _ => none
    | .refused _ => none

/-! ## The invariant of the pipeline -/

/-- Each valid stage holds what its stage functions make of some request word (R27, R31 to R33, R38), and the build keeps
R9. Before the first reset edge nothing of the kind holds (R41). -/
structure State.Faithful (s : State) : Prop where
  params : s.params.wellFormed = true
  s1 : s.s1.v = true → ∃ w, s.s1 = { stageA s.params w with v := true }
  s2 : s.s2.v = true → ∃ w, s.s2 = { stageB (stageA s.params w) with v := true }
  s3 : s.s3.v = true → ∃ w, s.s3 = { stageC (stageB (stageA s.params w)) with v := true }

/-! ## What can be seen -/

/-- Two S1 entries no rule tells apart: both bubbles, or equal (R40, U6). -/
def S1.same (a b : S1) : Prop := a.v = b.v ∧ (a.v = true → a = b)
/-- Two S2 entries no rule tells apart. -/
def S2.same (a b : S2) : Prop := a.v = b.v ∧ (a.v = true → a = b)
/-- Two S3 entries no rule tells apart. -/
def S3.same (a b : S3) : Prop := a.v = b.v ∧ (a.v = true → a = b)

/-- Two states that differ at most in the data fields of bubbles and in the free values' counter, driven alike. -/
structure State.Same (s t : State) : Prop where
  s1 : S1.same s.s1 t.s1
  s2 : S2.same s.s2 t.s2
  s3 : S3.same s.s3 t.s3
  params : s.params = t.params
  host : s.host = t.host

/-- The port values two cycles drive agree, but for `req_word` when no request is offered. -/
def PortsIn.same (p q : PortsIn) : Prop :=
  p.rst = q.rst ∧ p.reqValid = q.reqValid ∧ p.rspReady = q.rspReady ∧ (p.reqValid = true → p.reqWord = q.reqWord)

/-- Two outcomes that are the same stop, or next states no rule tells apart. -/
def SameOutcome : Host.Outcome State Fault Refusal → Host.Outcome State Fault Refusal → Prop
  | .next s, .next t => State.Same s t
  | .fault f, .fault g => f = g
  | .refused f, .refused g => f = g
  | _, _ => False

/-! ## A host that follows R86 -/

/-- A line of R86, not a raw cycle, with n ≥ 1. -/
def HostLine.ofProgram : HostLine → Bool
  | .request _ => true
  | .idle n => decide (1 ≤ n)
  | .reset n => decide (1 ≤ n)
  | .rspReady _ => true
  | .cycle _ => false

/-- The host has only R86's lines to do, and what it holds is its current request line. -/
structure State.FollowsProgram (s : State) : Prop where
  lines : ∀ l ∈ s.host.prog, l.ofProgram = true
  held : ∀ w, s.host.held = some w → s.host.prog.head? = some (.request w)

end Sys2Proof.Machine
end

