-- ==== Sys2Proof/Certificates/Slice0/Obligations.lean ====
section
/-! DEFINITION. The statements for the provers. Each docstring names the rule of spec/ it formalises. An entry's
`finish` is the response its later stages make of it, so a statement about `(partA p i).finish` or about `t.s1.finish` is
about the response the block gives to that request. -/

open Sys2Proof Sys2Proof.Machine

/-! ## Encoding and syntax -/

/-- R83: the op bits alone select the row, whose mask is 0x1C0000 and whose match is `op << 18`. -/
def Obligations.DecoderReadsOpBitsAlone : Prop :=
  ∀ w : ReqWord, (decode w).op = w.extractLsb' 18 3 ∧
    w &&& 0x1C0000#21 = (decode w).op.setWidth 21 <<< 18 ∧
    ∀ w' : ReqWord, w'.extractLsb' 18 3 = w.extractLsb' 18 3 → (decode w').op = (decode w).op

/-- R87's nine lines: the assembler's words, and what the decoder reads from them. -/
def Obligations.EncodingExamples : Prop :=
  assemble (.encThr 48 0 0) = some (.request 0x000030#21) ∧
  assemble (.encThr 2047 0 0) = some (.request 0x0007FF#21) ∧
  assemble (.encThrClamp 48 1 0) = some (.request 0x050030#21) ∧
  assemble (.encThrClamp 2047 1 0) = some (.request 0x0507FF#21) ∧
  assemble (.encThrMin 1 1) = some (.request 0x0B0000#21) ∧
  assemble (.encCmd 0 1) = some (.request 0x0E0000#21) ∧
  assemble (.encRev 1 0) = some (.request 0x100001#21) ∧
  assemble (.decErpm 0x0FFF) = some (.request 0x140FFF#21) ∧
  assemble (.req 0x180000) = some (.request 0x180000#21) ∧
  decode 0x000030#21 = .encThr 48#16 false false ∧
  decode 0x0007FF#21 = .encThr 2047#16 false false ∧
  decode 0x050030#21 = .encThrClamp 48#16 true false ∧
  decode 0x0507FF#21 = .encThrClamp 2047#16 true false ∧
  decode 0x0B0000#21 = .encThrMin true true ∧
  decode 0x0E0000#21 = .encCmd 0#16 true ∧
  decode 0x100001#21 = .encRev true false ∧
  decode 0x140FFF#21 = .decErpm 0x0FFF#16 ∧
  decode 0x180000#21 = .illegalOp6 0#18

/-- R70, R71, R77, R84: decoding gives back every operation that is encoded, with all its operands. -/
def Obligations.DecodeAfterEncode : Prop := ∀ i : Instr, decode (encode i) = i

/-- R75, R84: encoding what was decoded keeps exactly the bits that are not ignored, and writes 0 in the others. -/
def Obligations.EncodeAfterDecode : Prop := ∀ w : ReqWord, encode (decode w) = w &&& (decode w).readMask

/-- R75: the ignored bits of each row change neither the operation nor the entry stage A makes nor the response, and an
encoder writes 0 in them. -/
def Obligations.IgnoredBitsHaveNoEffect : Prop :=
  (∀ (p : Params) (w w' : ReqWord), w &&& (decode w).readMask = w' &&& (decode w).readMask →
    decode w' = decode w ∧ stageA p w' = stageA p w ∧ (stageA p w').finish = (stageA p w).finish) ∧
  ∀ i : Instr, encode i &&& ~~~ i.readMask = 0#21

/-- R82 and log 23: a number is a request word exactly when it has at most 21 bits. -/
def Obligations.WideNumbersAreRefused : Prop :=
  ∀ n : Nat, (n < 2 ^ 21 → decodeNat n = .ok (decode (BitVec.ofNat 21 n))) ∧
    (2 ^ 21 ≤ n → decodeNat n = .error .widerThanARequest)

/-- R84's table: the word of each request line as a number, and the operands that are assembly errors. (`.req`: log 17.) -/
def Obligations.AssemblerEncodesEachLine : Prop :=
  (∀ value telem inv : Nat, assemble (.encThr value telem inv) =
    if value < 65536 ∧ telem ≤ 1 ∧ inv ≤ 1 then
      some (.request (BitVec.ofNat 21 (inv * 2 ^ 17 + telem * 2 ^ 16 + value))) else none) ∧
  (∀ value telem inv : Nat, assemble (.encThrClamp value telem inv) =
    if value < 65536 ∧ telem ≤ 1 ∧ inv ≤ 1 then
      some (.request (BitVec.ofNat 21 (1 * 2 ^ 18 + inv * 2 ^ 17 + telem * 2 ^ 16 + value))) else none) ∧
  (∀ telem inv : Nat, assemble (.encThrMin telem inv) =
    if telem ≤ 1 ∧ inv ≤ 1 then
      some (.request (BitVec.ofNat 21 (2 * 2 ^ 18 + inv * 2 ^ 17 + telem * 2 ^ 16))) else none) ∧
  (∀ code inv : Nat, assemble (.encCmd code inv) =
    if code < 65536 ∧ inv ≤ 1 then
      some (.request (BitVec.ofNat 21 (3 * 2 ^ 18 + inv * 2 ^ 17 + code))) else none) ∧
  (∀ reverse inv : Nat, assemble (.encRev reverse inv) =
    if reverse ≤ 1 ∧ inv ≤ 1 then
      some (.request (BitVec.ofNat 21 (4 * 2 ^ 18 + inv * 2 ^ 17 + reverse))) else none) ∧
  (∀ raw : Nat, assemble (.decErpm raw) =
    if raw < 65536 then some (.request (BitVec.ofNat 21 (5 * 2 ^ 18 + raw))) else none) ∧
  (∀ word : Nat, assemble (.req word) =
    if word < 2 ^ 21 then some (.request (BitVec.ofNat 21 word)) else none) ∧
  (∀ inv : Nat, assemble (.encSpinNormal inv) = assemble (.encRev 0 inv)) ∧
  (∀ inv : Nat, assemble (.encSpinReversed inv) = assemble (.encRev 1 inv))

/-- R85: the disassembler's line assembles to the word it came from, and it is a `.req` line exactly for op 6 and 7 and for
a word with a nonzero ignored bit. -/
def Obligations.DisassemblerRoundTrip : Prop :=
  ∀ w : ReqWord, assemble (disassemble w) = some (.request w) ∧
    ((∃ n, disassemble w = .req n) ↔ (6 ≤ (reqOp w).toNat ∨ w &&& ~~~ (decode w).readMask ≠ 0#21))

/-! ## The step and the ports -/

/-- R31, R38: a request on the port is decoded and its operation run; with none the block takes in a bubble. -/
def Obligations.StepRunsTheDecodedRequest : Prop :=
  ∀ s : State, s.stopped = none →
    (s.ports.reqValid = true → step s = exec (decode s.ports.reqWord) s) ∧
    (s.ports.reqValid = false → step s = .next (bubbleEdge s))

/-- Log 2: a request placed for the next step is the operation that step runs, and the edge accepts it. The one premise
is that the block does not offer a response with a reserved status (R81). -/
def Obligations.PlacedRequestRunsNext : Prop :=
  ∀ (s : State) (nbits w : Nat), ¬ (s.s3.v = true ∧ 5 ≤ s.s3.st.toNat) →
    step (s.withFetchWord nbits w) =
        exec (decode (BitVec.ofNat 21 (w % 2 ^ nbits))) (s.withFetchWord nbits w) ∧
      (s.withFetchWord nbits w).accepted = some (BitVec.ofNat 21 (w % 2 ^ nbits))

/-- R38, with R31 to R33: with `rst = 0` and no stall all three stages advance together, each from the state before the
edge. -/
def Obligations.AdvanceEdgeMovesEveryStage : Prop :=
  ∀ s : State, s.stopped = none → s.ports.rst = false → s.stall = false →
    ∃ t, step s = .next t ∧
      t.s3 = { stageC s.s2 with v := s.s2.v } ∧
      t.s2 = { stageB s.s1 with v := s.s1.v } ∧
      t.s1 = { stageA s.params s.ports.reqWord with v := s.ports.reqValid } ∧
      (s.s3.v = true → s.transferred = some s.s3.response) ∧
      (s.ports.reqValid = true → s.accepted = some s.ports.reqWord)

/-- R39: with `rst = 0` and `stall = 1` every stage keeps all its fields, no request is accepted and no response is
transferred. -/
def Obligations.StalledEdgeHoldsEveryStage : Prop :=
  ∀ s : State, s.stopped = none → s.ports.rst = false → s.stall = true →
    ∃ t, step s = .next t ∧ t.s1 = s.s1 ∧ t.s2 = s.s2 ∧ t.s3 = s.s3 ∧
      s.accepted = none ∧ s.transferred = none

/-- R37: an edge with `rst = 1` clears the three valid bits, and the request offered in that cycle is not accepted,
because `req_ready = 0`. -/
def Obligations.ResetEdgeClearsValidBits : Prop :=
  ∀ s : State, s.stopped = none → s.ports.rst = true →
    ∃ t, step s = .next t ∧ t.s1.v = false ∧ t.s2.v = false ∧ t.s3.v = false ∧
      s.reqReady = false ∧ s.accepted = none

/-- R40, R60, R230, R231: after one reset edge nothing is in flight, no response was transferred at it, `rsp_valid = 0`,
and `req_ready = 1` once `rst` is 0. -/
def Obligations.OneResetEdgeIsEnough : Prop :=
  ∀ s t : State, s.ports.rst = true → step s = .next t →
    t.inFlight = [] ∧ s.transferred = none ∧ t.rspValid = false ∧ t.params = s.params ∧
      (t.ports.rst = false → t.reqReady = true)

/-- R40: State.reset has the values R40 states, R9's default parameters, and is ready. -/
def Obligations.ResetStateValues : Prop :=
  State.reset.s1.v = false ∧ State.reset.s2.v = false ∧ State.reset.s3.v = false ∧
    State.reset.rspValid = false ∧ State.reset.reqReady = true ∧ State.reset.inFlight = [] ∧
    State.reset.params.wellFormed = true ∧
    State.reset.params.spinNormal = 20 ∧ State.reset.params.spinReversed = 21 ∧
    (∀ c : Nat, c ∈ State.reset.params.cmdValid ↔ (c ≤ 11 ∨ (20 ≤ c ∧ c ≤ 30)))

/-- R36: the pipeline stalls exactly when S3 holds a response the host does not take in this cycle, and R35: the block is
ready exactly when it is neither reset nor stalled. -/
def Obligations.StallAndReady : Prop :=
  ∀ s : State, (s.stall = true ↔ s.s3.v = true ∧ s.ports.rspReady = false) ∧
    (s.reqReady = true ↔ s.ports.rst = false ∧ ¬ (s.s3.v = true ∧ s.ports.rspReady = false))

/-- R26, R34, R78: the response ports while a response is held; R234: no input port has a part in them. -/
def Obligations.ResponsePortsAreDrivenFromS3 : Prop :=
  (∀ s : State, s.rspValid = s.s3.v) ∧
  (∀ s : State, s.s3.v = true →
    s.rspWord.extractLsb' 32 3 = s.s3.st ∧ s.rspWord.extractLsb' 0 32 = s.s3.data) ∧
  ∀ (s : State) (h : HostSide), ({ s with host := h } : State).rspValid = s.rspValid ∧
    ({ s with host := h } : State).rspWord = s.rspWord

/-- R235: a response that is offered and not taken stays offered, and its word stays unchanged, until it is taken;
lowering `rsp_ready` stalls the pipeline and loses nothing. -/
def Obligations.ResponseStaysUntilTaken : Prop :=
  ∀ s t : State, s.rspValid = true → s.ports.rst = false → s.ports.rspReady = false → step s = .next t →
    s.stall = true ∧ t.rspValid = true ∧ t.rspWord = s.rspWord ∧ t.s3 = s.s3 ∧ t.inFlight = s.inFlight

/-- R53 and R54: when a request is accepted and a response transferred, and which. -/
def Obligations.Handshakes : Prop :=
  ∀ s : State,
    (∀ w, s.accepted = some w ↔ s.ports.reqValid = true ∧ s.reqReady = true ∧ s.ports.reqWord = w) ∧
    (∀ r, s.transferred = some r ↔
      s.rspValid = true ∧ s.ports.rspReady = true ∧ s.ports.rst = false ∧ s.s3.response = r)

/-- R61: at most three requests are in flight, and a fourth is not accepted while all stages are valid and the response
is not taken. -/
def Obligations.AtMostThreeInFlight : Prop :=
  ∀ s : State, s.inFlight.length ≤ 3 ∧
    (s.inFlight.length = 3 → s.ports.rspReady = false →
      s.stall = true ∧ s.reqReady = false ∧ s.accepted = none)

/-- R237: no step changes the parameters. -/
def Obligations.ParametersNeverChange : Prop :=
  ∀ s t : State, step s = .next t → t.params = s.params

/-- R239: with no reset and `rsp_ready = 1`, every edge accepts the request that is offered, whatever its op, and transfers
the response that is held. -/
def Obligations.OneRequestAndOneResponsePerEdge : Prop :=
  ∀ s : State, s.ports.rst = false → s.ports.rspReady = true →
    (s.ports.reqValid = true → s.accepted = some s.ports.reqWord) ∧
    (s.s3.v = true → s.transferred = some s.s3.response)

/-- R238: with no stall and no reset, a request accepted at an edge is in S1, S2 and S3 after that edge and the next two,
and its response is then offered, to be transferred at the third edge after its acceptance. -/
def Obligations.LatencyIsThreeEdges : Prop :=
  ∀ (s t u v : State) (w : ReqWord), s.accepted = some w →
    step s = .next t → step t = .next u → step u = .next v → t.reqReady = true → u.reqReady = true →
      t.s1 = { stageA s.params w with v := true } ∧
      u.s2 = { stageB (stageA s.params w) with v := true } ∧
      v.rspValid = true ∧ v.s3.response = opResponse s.params w ∧
      (v.ports.rst = false → v.ports.rspReady = true → v.transferred = some (opResponse s.params w))

/-- R233, U9: a host that changes or withdraws a request it holds unaccepted is refused; it holds one exactly when the
cycle before offered one that was not accepted. (That a reset cycle does not end the duty: DEDUCED, log 12; that
the duty holds before the first reset edge too: DESIGN CHOICE, log 28.) -/
def Obligations.ChangedRequestIsRefused : Prop :=
  (∀ (s : State) (w : ReqWord), s.host.held = some w →
    ¬ (s.ports.reqValid = true ∧ s.ports.reqWord = w) → step s = .refused .hostChangedRequest) ∧
  ∀ s t : State, step s = .next t → ∀ w, (t.host.held = some w ↔
    s.ports.reqValid = true ∧ s.ports.reqWord = w ∧ s.accepted = none)

/-- U8, R81: a response with status 5, 6 or 7 that is offered with `rst = 0` is a fault (log 13), before the first
reset edge too (the model's choice, log 27). -/
def Obligations.ReservedStatusIsAFault : Prop :=
  ∀ s : State, s.hostKeepsRequest = true → s.lineFits = true → s.ports.rst = false → s.s3.v = true →
    5 ≤ s.s3.st.toNat → step s = .fault .reservedStatus

/-! ## The operations: each completes, and with which response -/

/-- R120: ENC_THR, its encoding, its S1 entry and its response. -/
def Obligations.EncThrResult : Prop :=
  (∀ w : ReqWord, w.extractLsb' 18 3 = 0b000#3 →
    decode w = .encThr (w.extractLsb' 0 16) (w.getLsbD 16) (w.getLsbD 17)) ∧
  ∀ (s : State) (value : Operand) (telem inv : Bool), s.reqReady = true →
    ∃ t, exec (.encThr value telem inv) s = .next t ∧
      (48 ≤ value.toNat ∧ value.toNat ≤ 2047 →
        t.s1 = ⟨true, false, 0#3, 0#32, value.extractLsb' 0 11, telem, inv, false, 0#12⟩ ∧
        t.s1.pay.toNat = value.toNat ∧
        (stageB t.s1).csum = checksum t.s1.pay telem inv ∧
        t.s1.finish = ⟨0#3, (frame t.s1.pay telem (checksum t.s1.pay telem inv)).setWidth 32⟩) ∧
      (¬ (48 ≤ value.toNat ∧ value.toNat ≤ 2047) →
        t.s1 = ⟨true, false, 1#3, value.setWidth 32, 0#11, false, false, false, 0#12⟩ ∧
        t.s1.finish = ⟨1#3, value.setWidth 32⟩)

/-- R121: ENC_THR_CLAMP, its encoding, its S1 entry and its response; it never fails. -/
def Obligations.EncThrClampResult : Prop :=
  (∀ w : ReqWord, w.extractLsb' 18 3 = 0b001#3 →
    decode w = .encThrClamp (w.extractLsb' 0 16) (w.getLsbD 16) (w.getLsbD 17)) ∧
  ∀ (s : State) (value : Operand) (telem inv : Bool), s.reqReady = true →
    ∃ t, exec (.encThrClamp value telem inv) s = .next t ∧
      t.s1.pay.toNat = (if value.toNat < 48 then 48 else if 2047 < value.toNat then 2047 else value.toNat) ∧
      t.s1 = ⟨true, false, 0#3, 0#32, t.s1.pay, telem, inv, false, 0#12⟩ ∧
      (stageB t.s1).csum = checksum t.s1.pay telem inv ∧
      t.s1.finish = ⟨0#3, (frame t.s1.pay telem (checksum t.s1.pay telem inv)).setWidth 32⟩

/-- R122: ENC_THR_MIN, its encoding, its S1 entry and its response, one of four, which is that of ENC_THR 48 and of
ENC_THR_CLAMP 0. -/
def Obligations.EncThrMinResult : Prop :=
  (∀ w : ReqWord, w.extractLsb' 18 3 = 0b010#3 → decode w = .encThrMin (w.getLsbD 16) (w.getLsbD 17)) ∧
  ∀ (s : State) (telem inv : Bool), s.reqReady = true →
    ∃ t, exec (.encThrMin telem inv) s = .next t ∧
      t.s1 = ⟨true, false, 0#3, 0#32, 48#11, telem, inv, false, 0#12⟩ ∧
      (stageB t.s1).csum = checksum 48#11 telem inv ∧
      t.s1.finish = ⟨0#3, if telem then (if inv then 0x0618#32 else 0x0617#32)
        else (if inv then 0x0609#32 else 0x0606#32)⟩ ∧
      t.s1.finish = (partA s.params (.encThr 48#16 telem inv)).finish ∧
      t.s1.finish = (partA s.params (.encThrClamp 0#16 telem inv)).finish

/-- R140: ENC_CMD, its encoding, its S1 entry and its response, for every P_CMD_VALID that R9 allows. -/
def Obligations.EncCmdResult : Prop :=
  (∀ w : ReqWord, w.extractLsb' 18 3 = 0b011#3 → decode w = .encCmd (w.extractLsb' 0 16) (w.getLsbD 17)) ∧
  ∀ (s : State) (code : Operand) (inv : Bool), s.params.wellFormed = true → s.reqReady = true →
    ∃ t, exec (.encCmd code inv) s = .next t ∧
      (code.toNat ∈ s.params.cmdValid →
        t.s1 = ⟨true, false, 0#3, 0#32, code.extractLsb' 0 11, true, inv, false, 0#12⟩ ∧
        t.s1.pay.toNat = code.toNat ∧
        (stageB t.s1).csum = checksum t.s1.pay true inv ∧
        t.s1.finish = ⟨0#3, (frame t.s1.pay true (checksum t.s1.pay true inv)).setWidth 32⟩) ∧
      (code.toNat ∉ s.params.cmdValid →
        t.s1 = ⟨true, false, 3#3, code.setWidth 32, 0#11, false, false, false, 0#12⟩ ∧
        t.s1.finish = ⟨3#3, code.setWidth 32⟩) ∧
      (48 ≤ code.toNat → code.toNat ∉ s.params.cmdValid)

/-- R141: ENC_REV, its encoding, its S1 entry and its response, which is that of ENC_CMD with the chosen spin code, for
every build that R9 allows. -/
def Obligations.EncRevResult : Prop :=
  (∀ w : ReqWord, w.extractLsb' 18 3 = 0b100#3 → decode w = .encRev (w.getLsbD 0) (w.getLsbD 17)) ∧
  ∀ (s : State) (reverse inv : Bool), s.params.wellFormed = true → s.reqReady = true →
    ∃ t u code, exec (.encRev reverse inv) s = .next t ∧
      code.toNat = (if reverse then s.params.spinReversed else s.params.spinNormal) ∧
      t.s1 = ⟨true, false, 0#3, 0#32, code.extractLsb' 0 11, true, inv, false, 0#12⟩ ∧
      t.s1.pay.toNat = code.toNat ∧
      (stageB t.s1).csum = checksum t.s1.pay true inv ∧
      t.s1.finish = ⟨0#3, (frame t.s1.pay true (checksum t.s1.pay true inv)).setWidth 32⟩ ∧
      exec (.encCmd code inv) s = .next u ∧ t.s1.finish = u.s1.finish

/-- R160: DEC_ERPM, its encoding, its S1 and S2 entries and its response, in the rule's four cases. -/
def Obligations.DecErpmResult : Prop :=
  (∀ w : ReqWord, w.extractLsb' 18 3 = 0b101#3 → decode w = .decErpm (w.extractLsb' 0 16)) ∧
  ∀ (s : State) (value : Operand), s.reqReady = true →
    ∃ t, exec (.decErpm value) s = .next t ∧
      (value.extractLsb' 12 4 ≠ 0#4 →
        t.s1 = ⟨true, false, 2#3, value.setWidth 32, 0#11, false, false, false, 0#12⟩ ∧
        t.s1.finish = ⟨2#3, value.setWidth 32⟩) ∧
      (value = 0x0FFF#16 →
        t.s1 = ⟨true, true, 0#3, 0#32, 0#11, false, false, true, 0xFFF#12⟩ ∧
        t.s1.finish = ⟨0#3, 0#32⟩) ∧
      (value.extractLsb' 12 4 = 0#4 → value ≠ 0x0FFF#16 →
        t.s1 = ⟨true, true, 0#3, 0#32, 0#11, false, false, false, value.extractLsb' 0 12⟩ ∧
        ∀ p : Nat, p = value.toNat % 512 * 2 ^ (value.toNat / 512 % 8) →
          (p = 0 → (stageB t.s1).st = 2#3 ∧ (stageB t.s1).err = value.setWidth 32 ∧
            t.s1.finish = ⟨2#3, value.setWidth 32⟩) ∧
          (p ≠ 0 → (stageB t.s1).period.toNat = p ∧
            t.s1.finish = ⟨0#3, BitVec.ofNat 32 ((600000 + p / 2) / p)⟩))

/-- R204: op 6 and op 7 are accepted like any request and answered with ILLEGAL_OP and the whole request word. -/
def Obligations.IllegalOpResult : Prop :=
  (∀ w : ReqWord, w.extractLsb' 18 3 = 0b110#3 → decode w = .illegalOp6 (w.extractLsb' 0 18)) ∧
  (∀ w : ReqWord, w.extractLsb' 18 3 = 0b111#3 → decode w = .illegalOp7 (w.extractLsb' 0 18)) ∧
  ∀ (s : State) (w : BitVec 18), s.reqReady = true →
    (∃ t, exec (.illegalOp6 w) s = .next t ∧
      t.s1 = ⟨true, false, 4#3, BitVec.ofNat 32 (6 * 2 ^ 18 + w.toNat), 0#11, false, false, false, 0#12⟩ ∧
      t.s1.finish = ⟨4#3, BitVec.ofNat 32 (6 * 2 ^ 18 + w.toNat)⟩) ∧
    (∃ t, exec (.illegalOp7 w) s = .next t ∧
      t.s1 = ⟨true, false, 4#3, BitVec.ofNat 32 (7 * 2 ^ 18 + w.toNat), 0#11, false, false, false, 0#12⟩ ∧
      t.s1.finish = ⟨4#3, BitVec.ofNat 32 (7 * 2 ^ 18 + w.toNat)⟩)

/-- R55, R38, R39: what every operation leaves as it was. The older entries move as they do for any request, S3's is
taken, the parameters stay, and on a stall every stage stays. Beside the block's own state: the host moves on as R86 and
R233 say (that it stands in State and what it holds: logs 1 and 12), and the counter of edges, the model's own field, is one
more (DESIGN CHOICE, log 20). -/
def Obligations.OperationFrame : Prop :=
  ∀ (i : Instr) (s t : State), exec i s = .next t →
    t.params = s.params ∧ t.draw = s.draw + 1 ∧ t.host = s.hostAfter (s.ports.reqValid && s.reqReady) ∧
    (s.reqReady = true → t.s1.v = true ∧
      t.s2 = { stageB s.s1 with v := s.s1.v } ∧ t.s3 = { stageC s.s2 with v := s.s2.v }) ∧
    (s.ports.rst = false → s.stall = true → t.s1 = s.s1 ∧ t.s2 = s.s2 ∧ t.s3 = s.s3) ∧
    (s.ports.rst = true → t.s1.v = false ∧ t.s2.v = false ∧ t.s3.v = false)

/-- R200: an error affects nothing but its own response. Whichever of two operations the block is offered, one that fails
or one that does not, everything but the entry it takes in comes out the same. -/
def Obligations.ErrorsAffectNothingElse : Prop :=
  ∀ (i j : Instr) (s t u : State), exec i s = .next t → exec j s = .next u →
    t = { u with s1 := t.s1 } ∧ t.s1.v = u.s1.v

/-! ## The staged evaluation and the order of responses -/

/-- R15, R56: the three stages compose to the pure function of the request word. -/
def Obligations.StagesComposeToOp : Prop :=
  ∀ (p : Params) (w : ReqWord), (stageC (stageB (stageA p w))).response = opResponse p w

/-- R56, R60: one step of the in-order queue. A reset edge drops all; any other takes the oldest response off when it is
transferred and puts that of the accepted request on. -/
def Obligations.StepIsAnInOrderQueue : Prop :=
  ∀ s t : State, step s = .next t →
    (s.ports.rst = true → t.inFlight = [] ∧ s.accepted = none ∧ s.transferred = none) ∧
    (s.ports.rst = false → s.transferred.toList ++ t.inFlight =
      s.inFlight ++ s.accepted.toList.map (opResponse s.params))

/-- R56: in every run without a reset edge, exactly one response for each accepted request, in the order of acceptance:
the responses transferred, then those still in flight, are those in flight at the start, then `Op` of each accepted
request. -/
def Obligations.OneResponsePerRequestInOrder : Prop :=
  ∀ (k : Nat) (s : State) (o : Observed), observe k s = some o → o.sawReset = false →
    o.responses ++ o.final.inFlight = s.inFlight ++ o.accepted.map (opResponse s.params)

/-- R57, R58: the responses depend on the accepted request words and the parameters alone. Two runs that start with nothing
in flight and accept the same words give the same responses, as far as both have got, whatever the timing. -/
def Obligations.ResponsesDependOnWordsAlone : Prop :=
  ∀ (k l : Nat) (s u : State) (o q : Observed), s.params = u.params → s.inFlight = [] → u.inFlight = [] →
    observe k s = some o → observe l u = some q → o.sawReset = false → q.sawReset = false →
    o.accepted = q.accepted → o.responses <+: q.responses ∨ q.responses <+: o.responses

/-- R37, R40, U6: what bubbles hold cannot be seen. From two states that differ only there, and in the model's own counter
of edges (log 20), the ports, the handshakes and the next states agree. -/
def Obligations.BubblesCannotBeSeen : Prop :=
  ∀ s t : State, State.Same s t →
    PortsIn.same s.ports t.ports ∧ s.reqReady = t.reqReady ∧ s.rspValid = t.rspValid ∧
    (s.rspValid = true → s.rspWord = t.rspWord) ∧
    s.accepted = t.accepted ∧ s.transferred = t.transferred ∧ SameOutcome (step s) (step t)

/-- R40: the pipeline's invariant holds after reset, whatever program is loaded. The build is that of State.load: R9's default
parameters, which are choices (R9, logs 4 and 5) and meet R9's constraints. -/
def Obligations.FaithfulAfterReset : Prop := ∀ prog : List HostLine, (State.load prog).Faithful

/-- R27, R31 to R33, R38: every step keeps the pipeline's invariant. -/
def Obligations.StepKeepsFaithful : Prop :=
  ∀ s t : State, s.Faithful → step s = .next t → t.Faithful

/-- R81: in a state that meets the invariant no step ends in a fault, and an offered response has a status of R79. -/
def Obligations.FaithfulNeverFaults : Prop :=
  ∀ s : State, s.Faithful → (∀ f, step s ≠ .fault f) ∧ (s.rspValid = true → s.s3.st.toNat ≤ 4)

/-- R28, R29, R31: what the fields of a valid entry hold, stage by stage, in a state that meets the invariant. -/
def Obligations.EntriesHoldOnlyTheirOwnFields : Prop :=
  ∀ s : State, s.Faithful →
    (s.s1.v = true →
      (s.s1.st ≠ 0#3 → s.s1.dec = false ∧ s.s1.pay = 0#11 ∧ s.s1.tel = false ∧ s.s1.inv = false ∧
        s.s1.sent = false ∧ s.s1.raw = 0#12) ∧
      (s.s1.st = 0#3 → s.s1.err = 0#32 ∧
        (s.s1.dec = false → s.s1.sent = false ∧ s.s1.raw = 0#12) ∧
        (s.s1.dec = true → s.s1.pay = 0#11 ∧ s.s1.tel = false ∧ s.s1.inv = false ∧
          (s.s1.sent = true ↔ s.s1.raw = 0xFFF#12)))) ∧
    (s.s2.v = true → s.s2.st = 0#3 →
      (s.s2.dec = false → s.s2.sent = false ∧ s.s2.period = 0#16 ∧
        ∃ inv, s.s2.csum = checksum s.s2.pay s.s2.tel inv) ∧
      (s.s2.dec = true → s.s2.csum = 0#4 ∧ s.s2.pay = 0#11 ∧
        (s.s2.sent = true → s.s2.period = 0#16) ∧
        (s.s2.sent = false → 1 ≤ s.s2.period.toNat ∧ s.s2.period.toNat ≤ 65280)))

/-! ## Programs of R86 -/

/-- R86, R233: a host that does only R86's lines keeps its duty, at every step. (The host in State: logs 1 and 12.) -/
def Obligations.ProgramHostKeepsItsDuty : Prop :=
  (∀ s t : State, s.FollowsProgram → step s = .next t → t.FollowsProgram) ∧
  ∀ s : State, s.FollowsProgram → ∀ r, step s ≠ .refused r

/-- R86: the ports a program drives in the cycle of each line, what is left of it after the edge, and that `rsp_ready`
lasts until the next RSP_READY. An RSP_READY line takes no cycle: a step is that of the lines behind it, with `rsp_ready` as
it says; that a trailing one has effect in the next cycle is the model's choice (log 24). -/
def Obligations.ProgramLinesDriveThePorts : Prop :=
  (∀ (s : State) (b : Bool) (rest : List HostLine), s.host.prog = .rspReady b :: rest →
    s.ports = ({ s with host := { s.host with prog := rest, rspReady := b } } : State).ports ∧
    step s = step { s with host := { s.host with prog := rest, rspReady := b } }) ∧
  ∀ (s t : State) (rest : List HostLine), step s = .next t →
    (∀ w, s.host.prog = .request w :: rest →
      s.ports = ⟨false, true, w, s.host.rspReady⟩ ∧ t.host.rspReady = s.host.rspReady ∧
      (s.reqReady = true → t.host.prog = rest) ∧ (s.reqReady = false → t.host.prog = s.host.prog)) ∧
    (∀ n, s.host.prog = .idle (n + 1) :: rest →
      s.ports.rst = false ∧ s.ports.reqValid = false ∧ s.ports.rspReady = s.host.rspReady ∧
      t.host.rspReady = s.host.rspReady ∧ t.host.prog = if n = 0 then rest else .idle n :: rest) ∧
    (∀ n, s.host.prog = .reset (n + 1) :: rest →
      s.ports.rst = true ∧ s.ports.reqValid = false ∧ s.ports.rspReady = s.host.rspReady ∧
      t.host.rspReady = s.host.rspReady ∧ t.host.prog = if n = 0 then rest else .reset n :: rest) ∧
    (∀ b, s.host.prog = [.rspReady b] →
      s.ports.rst = false ∧ s.ports.reqValid = false ∧ s.ports.rspReady = b ∧
      t.host.prog = [] ∧ t.host.rspReady = b) ∧
    (s.host.prog = [] → s.ports.rst = false ∧ s.ports.reqValid = false ∧
      s.ports.rspReady = s.host.rspReady ∧ t.host.prog = [] ∧ t.host.rspReady = s.host.rspReady)

/-- R56, R86, R233: every program that assembles runs for any number of edges from reset with no stop; and if it has no
reset edge in them, the responses are `Op` of the accepted requests, in order, less those still in flight. The build is
that of State.load: R9's default parameters, whose values are choices (R9, logs 4 and 5). -/
def Obligations.AssembledProgramsRunAndAreAnswered : Prop :=
  ∀ (lines : List Source) (prog : List HostLine) (k : Nat), assembleAll lines = some prog →
    ∃ o, observe k (State.load prog) = some o ∧
      (o.sawReset = false →
        o.responses ++ o.final.inFlight = o.accepted.map (opResponse Params.default))

/-! ## Checksum and frame -/

/-- R101: the standard checksum is the XOR of the packet's three nibbles. -/
def Obligations.ChecksumIsNibbleXor : Prop :=
  ∀ (pay : Payload) (tel : Bool), packet pay tel = pay ++ BitVec.ofBool tel ∧
    checksum pay tel false = (packet pay tel).extractLsb' 0 4 ^^^ (packet pay tel).extractLsb' 4 4 ^^^
      (packet pay tel).extractLsb' 8 4

/-- R102: the inverted checksum is 15 less the standard one. -/
def Obligations.InvertedChecksumIsComplement : Prop :=
  ∀ (pay : Payload) (tel : Bool), checksum pay tel true = ~~~ checksum pay tel false ∧
    (checksum pay tel true).toNat = 15 - (checksum pay tel false).toNat

/-- R103: the frame is `{pay, tel, csum}`, and loses no bit. -/
def Obligations.FrameIsItsThreeFields : Prop :=
  ∀ (pay : Payload) (tel : Bool) (csum : Nibble),
    frame pay tel csum = pay ++ BitVec.ofBool tel ++ csum ∧
    (frame pay tel csum).toNat = pay.toNat * 32 + tel.toNat * 16 + csum.toNat

/-- R104, R105: every OK encode response is a frame with 0 above bit 15, whose low nibble is the checksum of its payload
and telemetry bit under the request's polarity, and whose telemetry bit and payload are those of the request. -/
def Obligations.OkEncodeResponsesAreFrames : Prop :=
  ∀ (p : Params) (i : Instr) (tel inv : Bool),
    ((∃ value, i = .encThr value tel inv) ∨ (∃ value, i = .encThrClamp value tel inv) ∨
      i = .encThrMin tel inv ∨ (tel = true ∧ ∃ code, i = .encCmd code inv) ∨
      (tel = true ∧ ∃ reverse, i = .encRev reverse inv)) →
    (partA p i).finish.status = 0#3 →
    (partA p i).finish.data.extractLsb' 16 16 = 0#16 ∧
    (partA p i).finish.data.extractLsb' 5 11 = (partA p i).pay ∧
    (partA p i).finish.data.getLsbD 4 = tel ∧
    (partA p i).finish.data.extractLsb' 0 4 =
      checksum ((partA p i).finish.data.extractLsb' 5 11) ((partA p i).finish.data.getLsbD 4) inv

/-! ## Laws of the families -/

/-- R106: no command frame shares a payload with a throttle frame, for every build that R9 allows. -/
def Obligations.ThrottleAndCommandPayloadsAreDisjoint : Prop :=
  ∀ (p : Params) (i : Instr), p.wellFormed = true → (partA p i).finish.status = 0#3 →
    ((∃ value telem inv, i = .encThr value telem inv ∨ i = .encThrClamp value telem inv ∨
        i = .encThrMin telem inv) →
      48 ≤ ((partA p i).finish.data.extractLsb' 5 11).toNat ∧
        ((partA p i).finish.data.extractLsb' 5 11).toNat ≤ 2047) ∧
    ((∃ code reverse inv, i = .encCmd code inv ∨ i = .encRev reverse inv) →
      ((partA p i).finish.data.extractLsb' 5 11).toNat ≤ 47)

/-- R123: the throttle family's laws. -/
def Obligations.ThrottleFamilyLaws : Prop :=
  ∀ (p : Params) (value : Operand) (t i : Bool),
    (48 ≤ value.toNat ∧ value.toNat ≤ 2047 →
      (partA p (.encThr value t i)).finish.status = 0#3 ∧
      (partA p (.encThr value t i)).finish.data.extractLsb' 0 4 =
        checksum ((partA p (.encThr value t i)).finish.data.extractLsb' 5 11)
          ((partA p (.encThr value t i)).finish.data.getLsbD 4) i) ∧
    (¬ (48 ≤ value.toNat ∧ value.toNat ≤ 2047) →
      (partA p (.encThr value t i)).finish = ⟨1#3, value.setWidth 32⟩) ∧
    (partA p (.encThrClamp value t i)).finish =
      (partA p (.encThr (BitVec.ofNat 16 (clamp value.toNat 48 2047)) t i)).finish ∧
    (partA p (.encThrMin t i)).finish = (partA p (.encThr 48#16 t i)).finish ∧
    ∀ j, (j = .encThr value t i ∨ j = .encThrClamp value t i ∨ j = .encThrMin t i) →
      (partA p j).finish.status = 0#3 →
      48 ≤ ((partA p j).finish.data.extractLsb' 5 11).toNat ∧
      ((partA p j).finish.data.extractLsb' 5 11).toNat ≤ 2047 ∧
      (partA p j).finish.data.getLsbD 4 = t ∧
      (partA p j).finish.data.extractLsb' 16 16 = 0#16

/-- R142: every OK response of ENC_CMD or ENC_REV has telemetry bit 1 and a payload in P_CMD_VALID, for every build that R9
allows. -/
def Obligations.CommandFamilyLaw : Prop :=
  ∀ (p : Params) (i : Instr), p.wellFormed = true →
    (∃ code reverse inv, i = .encCmd code inv ∨ i = .encRev reverse inv) →
    (partA p i).finish.status = 0#3 →
    (partA p i).finish.data.getLsbD 4 = true ∧
    ((partA p i).finish.data.extractLsb' 5 11).toNat ∈ p.cmdValid ∧
    (partA p i).finish.data.extractLsb' 16 16 = 0#16

/-- R161: the period is `mantissa << exponent` with no bit lost, at most 65408, and 0 exactly when the mantissa is. -/
def Obligations.PeriodLosesNoBit : Prop :=
  ∀ raw : Raw, (periodOf raw).toNat = raw.toNat % 512 * 2 ^ (raw.toNat / 512) ∧
    (periodOf raw).toNat ≤ 65408 ∧ (periodOf raw = 0#16 ↔ mantissa raw = 0#9)

/-- R162: for p in [1, 65408] the quotient fits 20 bits, is 600000 / p rounded half up, lies in [9, 600000], and p is a
tie exactly for the eight values named. -/
def Obligations.DivideRoundsHalfUp : Prop :=
  ∀ p : Period, 1 ≤ p.toNat → p.toNat ≤ 65408 →
    (erpmDivide p).toNat = (600000 + p.toNat / 2) / p.toNat ∧
    9 ≤ (erpmDivide p).toNat ∧ (erpmDivide p).toNat ≤ 600000 ∧ 600000 + p.toNat / 2 < 2 ^ 20 ∧
    ((erpmDivide p).toNat : ℤ) = ⌊(600000 / p.toNat : ℚ) + 1 / 2⌋ ∧
    (2 * (600000 % p.toNat) = p.toNat ↔
      p.toNat ∈ [128, 384, 640, 1920, 3200, 9600, 16000, 48000])

/-- R163: an OK response of DEC_ERPM with data 0 comes from the raw value 0x0FFF and from nothing else; every other is in
[9, 600000]. -/
def Obligations.SentinelIsDistinguishable : Prop :=
  ∀ (p : Params) (value : Operand), (partA p (.decErpm value)).finish.status = 0#3 →
    ((partA p (.decErpm value)).finish.data = 0#32 ↔ value = 0x0FFF#16) ∧
    (value ≠ 0x0FFF#16 → 9 ≤ (partA p (.decErpm value)).finish.data.toNat ∧
      (partA p (.decErpm value)).finish.data.toNat ≤ 600000)

/-- R164: of the 12-bit readings, exactly eight give MALFORMED_TELEMETRY. -/
def Obligations.ZeroPeriodReadings : Prop :=
  ∀ (p : Params) (value : Operand), value.extractLsb' 12 4 = 0#4 →
    ((partA p (.decErpm value)).finish = ⟨2#3, value.setWidth 32⟩ ↔
      value ∈ [0x000#16, 0x200#16, 0x400#16, 0x600#16, 0x800#16, 0xA00#16, 0xC00#16, 0xE00#16])

/-- R165: a larger period decodes to a smaller or equal number. -/
def Obligations.DecodeIsMonotonic : Prop :=
  ∀ (p : Params) (r q : Raw), r ≠ 0xFFF#12 → q ≠ 0xFFF#12 → periodOf r ≠ 0#16 →
    (periodOf r).toNat ≤ (periodOf q).toNat →
    (erpmDivide (periodOf q)).toNat ≤ (erpmDivide (periodOf r)).toNat ∧
    (partA p (.decErpm (q.setWidth 16))).finish.data.toNat ≤
      (partA p (.decErpm (r.setWidth 16))).finish.data.toNat

/-- R80, R79, R81, R201 to R203: the five statuses, who raises each, and what its data is. -/
def Obligations.StatusesAndTheirData : Prop :=
  ∀ (p : Params) (w : ReqWord), (stageA p w).finish.status.toNat ≤ 4 ∧
    ((stageA p w).finish.status = 1#3 → reqOp w = 0#3 ∧
      (stageA p w).finish.data = (reqValue w).setWidth 32) ∧
    ((stageA p w).finish.status = 2#3 → reqOp w = 5#3 ∧
      (stageA p w).finish.data = (reqValue w).setWidth 32) ∧
    ((stageA p w).finish.status = 3#3 → reqOp w = 3#3 ∧
      (stageA p w).finish.data = (reqValue w).setWidth 32) ∧
    ((stageA p w).finish.status = 4#3 ↔ 6 ≤ (reqOp w).toNat) ∧
    ((stageA p w).finish.status = 4#3 → (stageA p w).finish.data = w.setWidth 32)

/-! ## The source's own examples -/

/-- §8's examples as R120, R121 and R160 give them: the response of each request word. -/
def Obligations.SourceExamples : Prop :=
  ∀ p : Params,
    (stageA p 0x000030#21).finish = ⟨0#3, 0x0606#32⟩ ∧
    (stageA p 0x0007FF#21).finish = ⟨0#3, 0xFFEE#32⟩ ∧
    (stageA p 0x050030#21).finish = ⟨0#3, 0x0617#32⟩ ∧
    (stageA p 0x0507FF#21).finish = ⟨0#3, 0xFFFF#32⟩ ∧
    (stageA p 0x140FFF#21).finish = ⟨0#3, 0#32⟩
end

