-- ==== Sys2Proof/Laws/Decode.lean ====
section
/-! SUPPORT. The fields of a packed request word (R70), and the decoder by its op bits (R71). -/

namespace Sys2Proof

/-- Bit `k` of `{op, inv, telem, value}`, by the field it lies in (R70). -/
theorem reqPack_getLsbD (op : BitVec 3) (inv telem : Bool) (value : Operand) (k : Nat) :
    (reqPack op inv telem value).getLsbD k =
      if k < 16 then value.getLsbD k
      else if k = 16 then telem
      else if k = 17 then inv
      else op.getLsbD (k - 18) := by
  simp only [reqPack, BitVec.getLsbD_append, BitVec.getLsbD_ofBool]
  split
  · rfl
  · rcases Nat.lt_trichotomy k 17 with h | h | h
    · simp [show k = 16 by omega]
    · simp [h]
    · rw [if_neg (by omega), if_neg (by omega), if_neg (by omega), if_neg (by omega)]
      congr 1

theorem reqValue_reqPack (op : BitVec 3) (inv telem : Bool) (value : Operand) :
    reqValue (reqPack op inv telem value) = value := by
  apply BitVec.eq_of_getLsbD_eq
  intro k hk
  simp [reqValue, reqPack_getLsbD, hk]

theorem reqTelem_reqPack (op : BitVec 3) (inv telem : Bool) (value : Operand) :
    reqTelem (reqPack op inv telem value) = telem := by
  rw [reqTelem, reqPack_getLsbD]; simp

theorem reqInv_reqPack (op : BitVec 3) (inv telem : Bool) (value : Operand) :
    reqInv (reqPack op inv telem value) = inv := by
  rw [reqInv, reqPack_getLsbD]; simp

theorem reqOp_reqPack (op : BitVec 3) (inv telem : Bool) (value : Operand) :
    reqOp (reqPack op inv telem value) = op := by
  apply BitVec.eq_of_getLsbD_eq
  intro k hk
  simp only [reqOp, BitVec.getLsbD_extractLsb', reqPack_getLsbD, hk]
  rw [if_neg (by omega), if_neg (by omega), if_neg (by omega)]
  simp

/-- The rest of an illegal word is kept whole (R204). -/
theorem reqRest_append (op : BitVec 3) (w : BitVec 18) : reqRest (op ++ w) = w := by
  apply BitVec.eq_of_getLsbD_eq
  intro k hk
  rw [reqRest, BitVec.getLsbD_extractLsb', BitVec.getLsbD_append]
  simp [hk]

/-- A word's three op bits as one field and one by one. -/
theorem op_bits {w : ReqWord} {b2 b1 b0 : Bool}
    (h : w.extractLsb' 18 3 = BitVec.ofBool b2 ++ BitVec.ofBool b1 ++ BitVec.ofBool b0) :
    w.getLsbD 20 = b2 ∧ w.getLsbD 19 = b1 ∧ w.getLsbD 18 = b0 := by
  have g : ∀ k, k < 3 →
      w.getLsbD (18 + k) = (BitVec.ofBool b2 ++ BitVec.ofBool b1 ++ BitVec.ofBool b0).getLsbD k := by
    intro k hk
    rw [← h, BitVec.getLsbD_extractLsb']
    simp [hk]
  have g0 := g 0 (by decide)
  have g1 := g 1 (by decide)
  have g2 := g 2 (by decide)
  simp only [BitVec.getLsbD_append] at g0 g1 g2
  simp at g0 g1 g2
  exact ⟨g2, g1, g0⟩

/-- Decoding a packed word, by its op bits. -/
theorem decode_reqPack (op : BitVec 3) (inv telem : Bool) (value : Operand) :
    decode (reqPack op inv telem value) =
      (match op.getLsbD 2, op.getLsbD 1, op.getLsbD 0 with
      | false, false, false => .encThr value telem inv
      | false, false, true => .encThrClamp value telem inv
      | false, true, false => .encThrMin telem inv
      | false, true, true => .encCmd value inv
      | true, false, false => .encRev (value.getLsbD 0) inv
      | true, false, true => .decErpm value
      | true, true, false => .illegalOp6 (reqRest (reqPack op inv telem value))
      | true, true, true => .illegalOp7 (reqRest (reqPack op inv telem value))) := by
  unfold decode
  simp only [reqPack_getLsbD, reqValue_reqPack, reqTelem_reqPack, reqInv_reqPack]
  rfl

/-- `{op, inv, telem, value}` as a number. -/
theorem reqPack_eq_ofNat (op : BitVec 3) (inv telem : Bool) (value : Operand) :
    reqPack op inv telem value =
      BitVec.ofNat 21 (op.toNat * 2 ^ 18 + inv.toNat * 2 ^ 17 + telem.toNat * 2 ^ 16 + value.toNat) := by
  have app : ∀ {m n : Nat} (x : BitVec m) (y : BitVec n), (x ++ y).toNat = x.toNat * 2 ^ n + y.toNat := by
    intro m n x y
    rw [BitVec.toNat_append, ← Nat.shiftLeft_add_eq_or_of_lt y.isLt, Nat.shiftLeft_eq]
  apply BitVec.eq_of_toNat_eq
  have h1 := op.isLt
  have h2 := value.isLt
  rw [reqPack, app, app, app, BitVec.toNat_ofBool, BitVec.toNat_ofBool, BitVec.toNat_ofNat]
  cases inv <;> cases telem <;> simp <;> omega

end Sys2Proof
end

