-- ==== Sys2Proof/Laws/State.lean ====
section
/-! SUPPORT. What each update of State leaves in each field, so that no later proof unfolds a record update. -/

namespace Sys2Proof.Machine

/-! ## Entries of part A -/

@[simp] theorem S1.zero_st : S1.zero.st = 0#3 := rfl
@[simp] theorem S1.raise_st (st : Status) (d : Data) : (S1.raise st d).st = st.code := rfl
@[simp] theorem S1.raise_err (st : Status) (d : Data) : (S1.raise st d).err = d := rfl
@[simp] theorem S1.raise_dec (st : Status) (d : Data) : (S1.raise st d).dec = false := rfl
@[simp] theorem S1.raise_pay (st : Status) (d : Data) : (S1.raise st d).pay = 0#11 := rfl
@[simp] theorem S1.raise_tel (st : Status) (d : Data) : (S1.raise st d).tel = false := rfl
@[simp] theorem S1.raise_inv (st : Status) (d : Data) : (S1.raise st d).inv = false := rfl
@[simp] theorem S1.raise_sent (st : Status) (d : Data) : (S1.raise st d).sent = false := rfl
@[simp] theorem S1.raise_raw (st : Status) (d : Data) : (S1.raise st d).raw = 0#12 := rfl

@[simp] theorem S1.encode_st (pay : Payload) (tel inv : Bool) : (S1.encode pay tel inv).st = 0#3 := rfl
@[simp] theorem S1.encode_err (pay : Payload) (tel inv : Bool) : (S1.encode pay tel inv).err = 0#32 := rfl
@[simp] theorem S1.encode_dec (pay : Payload) (tel inv : Bool) : (S1.encode pay tel inv).dec = false := rfl
@[simp] theorem S1.encode_pay (pay : Payload) (tel inv : Bool) : (S1.encode pay tel inv).pay = pay := rfl
@[simp] theorem S1.encode_tel (pay : Payload) (tel inv : Bool) : (S1.encode pay tel inv).tel = tel := rfl
@[simp] theorem S1.encode_inv (pay : Payload) (tel inv : Bool) : (S1.encode pay tel inv).inv = inv := rfl
@[simp] theorem S1.encode_sent (pay : Payload) (tel inv : Bool) : (S1.encode pay tel inv).sent = false := rfl
@[simp] theorem S1.encode_raw (pay : Payload) (tel inv : Bool) : (S1.encode pay tel inv).raw = 0#12 := rfl

@[simp] theorem S1.reading_st (raw : Raw) (sent : Bool) : (S1.reading raw sent).st = 0#3 := rfl
@[simp] theorem S1.reading_err (raw : Raw) (sent : Bool) : (S1.reading raw sent).err = 0#32 := rfl
@[simp] theorem S1.reading_dec (raw : Raw) (sent : Bool) : (S1.reading raw sent).dec = true := rfl
@[simp] theorem S1.reading_pay (raw : Raw) (sent : Bool) : (S1.reading raw sent).pay = 0#11 := rfl
@[simp] theorem S1.reading_tel (raw : Raw) (sent : Bool) : (S1.reading raw sent).tel = false := rfl
@[simp] theorem S1.reading_inv (raw : Raw) (sent : Bool) : (S1.reading raw sent).inv = false := rfl
@[simp] theorem S1.reading_sent (raw : Raw) (sent : Bool) : (S1.reading raw sent).sent = sent := rfl
@[simp] theorem S1.reading_raw (raw : Raw) (sent : Bool) : (S1.reading raw sent).raw = raw := rfl

/-! ## Entries of part B -/

@[simp] theorem S2.copy_dec (e : S1) : (S2.copy e).dec = e.dec := rfl
@[simp] theorem S2.copy_st (e : S1) : (S2.copy e).st = e.st := rfl
@[simp] theorem S2.copy_err (e : S1) : (S2.copy e).err = e.err := rfl
@[simp] theorem S2.copy_pay (e : S1) : (S2.copy e).pay = e.pay := rfl
@[simp] theorem S2.copy_tel (e : S1) : (S2.copy e).tel = e.tel := rfl
@[simp] theorem S2.copy_csum (e : S1) : (S2.copy e).csum = 0#4 := rfl
@[simp] theorem S2.copy_sent (e : S1) : (S2.copy e).sent = e.sent := rfl
@[simp] theorem S2.copy_period (e : S1) : (S2.copy e).period = 0#16 := rfl
@[simp] theorem S2.raise_st (e : S2) (st : Status) (d : Data) : (e.raise st d).st = st.code := rfl
@[simp] theorem S2.raise_err (e : S2) (st : Status) (d : Data) : (e.raise st d).err = d := rfl
@[simp] theorem S2.raise_dec (e : S2) (st : Status) (d : Data) : (e.raise st d).dec = e.dec := rfl
@[simp] theorem S2.raise_pay (e : S2) (st : Status) (d : Data) : (e.raise st d).pay = e.pay := rfl
@[simp] theorem S2.raise_tel (e : S2) (st : Status) (d : Data) : (e.raise st d).tel = e.tel := rfl
@[simp] theorem S2.raise_csum (e : S2) (st : Status) (d : Data) : (e.raise st d).csum = e.csum := rfl
@[simp] theorem S2.raise_sent (e : S2) (st : Status) (d : Data) : (e.raise st d).sent = e.sent := rfl
@[simp] theorem S2.raise_period (e : S2) (st : Status) (d : Data) : (e.raise st d).period = e.period := rfl

@[simp] theorem stageC_st (e : S2) : (stageC e).st = e.st := rfl
@[simp] theorem stageC_data (e : S2) : (stageC e).data = stageCData e := rfl

/-! ## Edges -/

@[simp] theorem resetEdge_s1_v (s : State) : s.resetEdge.s1.v = false := rfl
@[simp] theorem resetEdge_s2_v (s : State) : s.resetEdge.s2.v = false := rfl
@[simp] theorem resetEdge_s3_v (s : State) : s.resetEdge.s3.v = false := rfl
@[simp] theorem resetEdge_params (s : State) : s.resetEdge.params = s.params := rfl
@[simp] theorem resetEdge_host (s : State) : s.resetEdge.host = s.host := rfl
@[simp] theorem resetEdge_draw (s : State) : s.resetEdge.draw = s.draw := rfl

@[simp] theorem advance_s1 (s : State) (valid : Bool) (a : S1) : (s.advance valid a).s1 = { a with v := valid } := rfl
@[simp] theorem advance_s2 (s : State) (valid : Bool) (a : S1) :
    (s.advance valid a).s2 = { stageB s.s1 with v := s.s1.v } := rfl
@[simp] theorem advance_s3 (s : State) (valid : Bool) (a : S1) :
    (s.advance valid a).s3 = { stageC s.s2 with v := s.s2.v } := rfl
@[simp] theorem advance_params (s : State) (valid : Bool) (a : S1) : (s.advance valid a).params = s.params := rfl
@[simp] theorem advance_host (s : State) (valid : Bool) (a : S1) : (s.advance valid a).host = s.host := rfl
@[simp] theorem advance_draw (s : State) (valid : Bool) (a : S1) : (s.advance valid a).draw = s.draw := rfl

@[simp] theorem clockEdge_s1 (valid : Bool) (a : S1) (s : State) :
    (clockEdge valid a s).s1 = (s.blockEdge valid a).s1 := rfl
@[simp] theorem clockEdge_s2 (valid : Bool) (a : S1) (s : State) :
    (clockEdge valid a s).s2 = (s.blockEdge valid a).s2 := rfl
@[simp] theorem clockEdge_s3 (valid : Bool) (a : S1) (s : State) :
    (clockEdge valid a s).s3 = (s.blockEdge valid a).s3 := rfl
@[simp] theorem clockEdge_host (valid : Bool) (a : S1) (s : State) :
    (clockEdge valid a s).host = s.hostAfter (s.ports.reqValid && s.reqReady) := rfl
@[simp] theorem clockEdge_draw (valid : Bool) (a : S1) (s : State) : (clockEdge valid a s).draw = s.draw + 1 := rfl

/-! ## The request placed for the next step -/

@[simp] theorem withFetchWord_s1 (s : State) (nbits w : Nat) : (s.withFetchWord nbits w).s1 = s.s1 := rfl
@[simp] theorem withFetchWord_s2 (s : State) (nbits w : Nat) : (s.withFetchWord nbits w).s2 = s.s2 := rfl
@[simp] theorem withFetchWord_s3 (s : State) (nbits w : Nat) : (s.withFetchWord nbits w).s3 = s.s3 := rfl
@[simp] theorem withFetchWord_params (s : State) (nbits w : Nat) : (s.withFetchWord nbits w).params = s.params := rfl
@[simp] theorem withFetchWord_draw (s : State) (nbits w : Nat) : (s.withFetchWord nbits w).draw = s.draw := rfl
@[simp] theorem withFetchWord_ports (s : State) (nbits w : Nat) :
    (s.withFetchWord nbits w).ports = offerCycle (BitVec.ofNat 21 (w % 2 ^ nbits)) := rfl

end Sys2Proof.Machine
end

