-- ==== Sys2Proof/Laws/Ops.lean ====
section
/-! SUPPORT. One lemma for each shared operation that says once everything it can do. -/

namespace Sys2Proof.Machine

/-! ## The edge (R37 to R39) -/

theorem blockEdge_of_rst {s : State} (h : s.ports.rst = true) (valid : Bool) (a : S1) :
    s.blockEdge valid a = s.resetEdge := by
  simp [State.blockEdge, h]

theorem blockEdge_of_stall {s : State} (hr : s.ports.rst = false) (hs : s.stall = true) (valid : Bool) (a : S1) :
    s.blockEdge valid a = s := by
  simp [State.blockEdge, hr, hs]

theorem blockEdge_of_ready {s : State} (h : s.reqReady = true) (valid : Bool) (a : S1) :
    s.blockEdge valid a = s.advance valid a := by
  simp only [State.reqReady, Bool.and_eq_true, Bool.not_eq_true'] at h
  simp [State.blockEdge, h.1, h.2]

/-- An edge resets, holds or advances, and which of them the ports say. -/
theorem blockEdge_cases (s : State) (valid : Bool) (a : S1) :
    (s.ports.rst = true ∧ s.blockEdge valid a = s.resetEdge) ∨
    (s.ports.rst = false ∧ s.stall = true ∧ s.blockEdge valid a = s) ∨
    (s.ports.rst = false ∧ s.stall = false ∧ s.blockEdge valid a = s.advance valid a) := by
  cases hr : s.ports.rst <;> cases hs : s.stall <;> simp [State.blockEdge, hr, hs]

@[simp] theorem blockEdge_params (s : State) (valid : Bool) (a : S1) : (s.blockEdge valid a).params = s.params := by
  rcases blockEdge_cases s valid a with ⟨-, h⟩ | ⟨-, -, h⟩ | ⟨-, -, h⟩ <;> rw [h] <;> rfl

@[simp] theorem clockEdge_params (valid : Bool) (a : S1) (s : State) : (clockEdge valid a s).params = s.params :=
  blockEdge_params s valid a

/-- `req_ready` is exactly no reset and no stall (R35). -/
theorem reqReady_iff (s : State) : s.reqReady = true ↔ s.ports.rst = false ∧ s.stall = false := by
  simp [State.reqReady]

/-! ## Stages B and C by the kind of entry (R32, R33) -/

theorem stageB_of_error {e : S1} (h : e.st ≠ 0#3) : stageB e = S2.copy e := if_neg h

theorem stageB_of_encode {e : S1} (hs : e.st = 0#3) (hd : e.dec = false) :
    stageB e = { S2.copy e with csum := checksum e.pay e.tel e.inv } := by
  simp [stageB, hs, hd, Status.code]

theorem stageB_of_sentinel {e : S1} (hs : e.st = 0#3) (hd : e.dec = true) (hn : e.sent = true) :
    stageB e = S2.copy e := by
  simp [stageB, hs, hd, hn, Status.code]

theorem stageB_of_reading {e : S1} (hs : e.st = 0#3) (hd : e.dec = true) (hn : e.sent = false) :
    stageB e = periodPart e.raw (S2.copy e) := by
  simp [stageB, hs, hd, hn, Status.code]

theorem stageCData_of_error {e : S2} (h : e.st ≠ 0#3) : stageCData e = e.err := if_neg h

theorem stageCData_of_encode {e : S2} (hs : e.st = 0#3) (hd : e.dec = false) :
    stageCData e = frameData (frame e.pay e.tel e.csum) := by
  simp [stageCData, hs, hd, Status.code]

theorem stageCData_of_sentinel {e : S2} (hs : e.st = 0#3) (hd : e.dec = true) (hn : e.sent = true) :
    stageCData e = 0#32 := by
  simp [stageCData, hs, hd, hn, Status.code]

theorem stageCData_of_reading {e : S2} (hs : e.st = 0#3) (hd : e.dec = true) (hn : e.sent = false) :
    stageCData e = erpmDivide e.period := by
  simp [stageCData, hs, hd, hn, Status.code]

/-- The period stage B computes, or the error it raises (R160). -/
theorem periodPart_cases (raw : Raw) (e : S2) :
    (periodOf raw = 0#16 ∧ periodPart raw e = e.raise .malformedTelemetry (raw.setWidth 32)) ∨
    (periodOf raw ≠ 0#16 ∧ periodPart raw e = { e with period := periodOf raw }) := by
  by_cases h : periodOf raw = 0#16 <;> simp [periodPart, h]

/-- ErpmDivide on a nonzero period (R160). -/
theorem erpmDivide_of_ne_zero {p : Period} (h : p.toNat ≠ 0) :
    erpmDivide p = BitVec.ofNat 32 ((600000 + p.toNat / 2) / p.toNat) := if_neg h

/-! ## The host's lines (R86) -/

/-- An RSP_READY line takes no cycle: it is done before the ports are driven (R86). -/
theorem settle_rspReady (b c : Bool) (rest : List HostLine) : settle (.rspReady b :: rest) c = settle rest b := rfl

/-- Settling leaves a list whose head is no `RSP_READY` line. -/
theorem settle_head (ls : List HostLine) (b c : Bool) : (settle ls b).1.head? ≠ some (.rspReady c) := by
  induction ls generalizing b with
  | nil => simp [settle]
  | cons l ls ih => cases l <;> simp [settle, ih]

/-- Settling drops lines and changes none. -/
theorem settle_subset (ls : List HostLine) (b : Bool) : ∀ l ∈ (settle ls b).1, l ∈ ls := by
  induction ls generalizing b with
  | nil => simp [settle]
  | cons l ls ih =>
    cases l with
    | rspReady c => exact fun l hl => List.mem_cons_of_mem _ (ih c l hl)
    | request w => exact fun l hl => hl
    | idle n => exact fun l hl => hl
    | reset n => exact fun l hl => hl
    | cycle p => exact fun l hl => hl

/-- A request line at the head drives its word with `req_valid = 1` and `rst = 0`. -/
theorem drivenPorts_request (draw : Nat) (w : ReqWord) (rest : List HostLine) (b : Bool) :
    drivenPorts draw (.request w :: rest, b) = ⟨false, true, w, b⟩ := rfl

end Sys2Proof.Machine
end

