-- ==== Sys2Proof/Laws/PerInstr.lean ====
section
/-! SUPPORT. Statements for all instructions, one lemma per constructor. `OpField`: an encoded operation's op bits are its
op number (R70, R71). `IgnoredZero`: an encoder writes 0 in every ignored bit (R75, R84). -/

namespace Sys2Proof.Laws.OpField

def Statement (i : Instr) : Prop := reqOp (encode i) = i.op

theorem encThr (value : Operand) (telem inv : Bool) : Statement (.encThr value telem inv) := reqOp_reqPack _ _ _ _
theorem encThrClamp (value : Operand) (telem inv : Bool) : Statement (.encThrClamp value telem inv) :=
  reqOp_reqPack _ _ _ _
theorem encThrMin (telem inv : Bool) : Statement (.encThrMin telem inv) := reqOp_reqPack _ _ _ _
theorem encCmd (code : Operand) (inv : Bool) : Statement (.encCmd code inv) := reqOp_reqPack _ _ _ _
theorem encRev (reverse inv : Bool) : Statement (.encRev reverse inv) := reqOp_reqPack _ _ _ _
theorem decErpm (value : Operand) : Statement (.decErpm value) := reqOp_reqPack _ _ _ _

/-- The op bits over 18 bits of rest. -/
theorem reqOp_append (op : BitVec 3) (w : BitVec 18) : reqOp (op ++ w) = op := by
  apply BitVec.eq_of_getLsbD_eq
  intro k hk
  rw [reqOp, BitVec.getLsbD_extractLsb', BitVec.getLsbD_append]
  simp [hk]

theorem illegalOp6 (w : BitVec 18) : Statement (.illegalOp6 w) := reqOp_append _ _
theorem illegalOp7 (w : BitVec 18) : Statement (.illegalOp7 w) := reqOp_append _ _

end Sys2Proof.Laws.OpField

namespace Sys2Proof.Laws.IgnoredZero

def Statement (i : Instr) : Prop := encode i &&& ~~~ i.readMask = 0#21

theorem encThr (value : Operand) (telem inv : Bool) : Statement (.encThr value telem inv) := by
  simp [Statement, Instr.readMask]
theorem encThrClamp (value : Operand) (telem inv : Bool) : Statement (.encThrClamp value telem inv) := by
  simp [Statement, Instr.readMask]
theorem encThrMin (telem inv : Bool) : Statement (.encThrMin telem inv) := by
  unfold Statement
  cases telem <;> cases inv <;> decide
theorem encCmd (code : Operand) (inv : Bool) : Statement (.encCmd code inv) := by
  apply BitVec.eq_of_getLsbD_eq
  intro k hk
  simp only [encode, Instr.readMask, BitVec.getLsbD_and, reqPack_getLsbD]
  interval_cases k <;> simp
theorem encRev (reverse inv : Bool) : Statement (.encRev reverse inv) := by
  unfold Statement
  cases reverse <;> cases inv <;> decide
theorem decErpm (value : Operand) : Statement (.decErpm value) := by
  apply BitVec.eq_of_getLsbD_eq
  intro k hk
  simp only [encode, Instr.readMask, BitVec.getLsbD_and, reqPack_getLsbD]
  interval_cases k <;> simp
theorem illegalOp6 (w : BitVec 18) : Statement (.illegalOp6 w) := by
  simp [Statement, Instr.readMask]
theorem illegalOp7 (w : BitVec 18) : Statement (.illegalOp7 w) := by
  simp [Statement, Instr.readMask]

end Sys2Proof.Laws.IgnoredZero
end

