-- ==== Sys2Proof/Laws/Stages.lean ====
section
/-! SUPPORT. The operand checks as plain conditions, and the response that each kind of S1 entry ends in (R32, R33). -/

namespace Sys2Proof.Machine

/-! ## Operand checks -/

theorem throttleInRange_iff (value : Operand) :
    throttleInRange value = true ↔ 48 ≤ value.toNat ∧ value.toNat ≤ 2047 := by
  rw [throttleInRange, Bool.not_eq_true', Bool.or_eq_false_iff, decide_eq_false_iff_not, decide_eq_false_iff_not,
    Nat.not_lt, Nat.not_lt]
  rfl

theorem isCommand_iff (p : Params) (value : Operand) : isCommand p value = true ↔ value.toNat ∈ p.cmdValid :=
  List.contains_iff_mem

theorem isReading_iff (value : Operand) : isReading value = true ↔ value.extractLsb' 12 4 = 0#4 := beq_iff_eq

theorem reservedCode_iff (st : StatusCode) : reservedCode st = true ↔ 5 ≤ st.toNat := decide_eq_true_iff

/-- A throttle or command code of 11 bits passes into the payload whole (R103, R120, R140). -/
theorem payloadOf_toNat {value : Operand} (h : value.toNat < 2048) : (payloadOf value).toNat = value.toNat := by
  rw [payloadOf, BitVec.extractLsb'_toNat, Nat.shiftRight_zero, Nat.mod_eq_of_lt h]

theorem clamp_bounds (v lo hi : Nat) (h : lo ≤ hi) : lo ≤ clamp v lo hi ∧ clamp v lo hi ≤ hi := by
  unfold clamp
  split
  · exact ⟨Nat.le_refl _, h⟩
  · split <;> omega

/-- The clamped throttle is in the range, and its 11 bits lose nothing (R121). -/
theorem clampedThrottle_bounds (value : Operand) : 48 ≤ clampedThrottle value ∧ clampedThrottle value ≤ 2047 ∧
    (BitVec.ofNat 11 (clampedThrottle value)).toNat = clampedThrottle value := by
  have h := clamp_bounds value.toNat 48 2047 (by decide)
  refine ⟨h.1, h.2, ?_⟩
  rw [BitVec.toNat_ofNat]
  exact Nat.mod_eq_of_lt (Nat.lt_of_le_of_lt h.2 (by decide))

/-- What R9 gives of the codes: each is below 48. -/
theorem cmdValid_lt {p : Params} (h : p.wellFormed = true) {c : Nat} (hc : c ∈ p.cmdValid) : c < 48 := by
  simp only [Params.wellFormed, Params.codesInRange, Bool.and_eq_true, List.all_eq_true, decide_eq_true_iff] at h
  exact h.1.1 c hc

/-- R9: the chosen spin code is in P_CMD_VALID. -/
theorem spinCode_mem {p : Params} (h : p.wellFormed = true) (reverse : Bool) : spinCode p reverse ∈ p.cmdValid := by
  simp only [Params.wellFormed, Params.spinsValid, Bool.and_eq_true, List.contains_iff_mem] at h
  cases reverse
  · exact h.2.1.1
  · exact h.2.1.2

/-! ## The response an S1 entry ends in. Its valid bit has no part in it. -/

@[simp] theorem stageB_valid (e : S1) (b : Bool) : stageB { e with v := b } = stageB e := rfl
@[simp] theorem stageC_valid (e : S2) (b : Bool) : stageC { e with v := b } = stageC e := rfl
@[simp] theorem S1.finish_valid (e : S1) (b : Bool) : ({ e with v := b } : S1).finish = e.finish := rfl
@[simp] theorem S2.finish_valid (e : S2) (b : Bool) : ({ e with v := b } : S2).finish = e.finish := rfl
@[simp] theorem S3.response_valid (e : S3) (b : Bool) : ({ e with v := b } : S3).response = e.response := rfl

theorem finish_encode (pay : Payload) (tel inv : Bool) :
    (S1.encode pay tel inv).finish = .ok (frameData (frame pay tel (checksum pay tel inv))) := rfl

theorem finish_raise {st : Status} (h : st ≠ .ok) (d : Data) : (S1.raise st d).finish = .error st d := by
  cases st <;> first | exact absurd rfl h | rfl

theorem finish_sentinel (raw : Raw) : (S1.reading raw true).finish = .ok 0#32 := rfl

/-- A reading that is not the sentinel: the error of a zero period, or the quotient (R160). -/
theorem finish_reading (raw : Raw) : (S1.reading raw false).finish =
    if periodOf raw = 0#16 then .error .malformedTelemetry (raw.setWidth 32) else .ok (erpmDivide (periodOf raw)) := by
  rw [S1.finish, stageB_of_reading rfl rfl rfl, S1.reading_raw]
  by_cases h : periodOf raw = 0#16 <;> simp only [periodPart, h, if_true, if_false] <;> rfl

end Sys2Proof.Machine
end

