-- ==== Sys2Proof/Laws/Step.lean ====
section
/-! SUPPORT. What exec and the step can answer, said once. -/

namespace Sys2Proof.Machine

/-- Every operation's meaning is the clock edge that offers its part A (R31, R38). -/
theorem exec_eq (i : Instr) (s : State) : exec i s = .next (clockEdge true (partA s.params i) s) := by
  cases i <;> rfl

/-- An operation that is accepted puts its part A into S1 (R31, R38). -/
theorem exec_of_ready (i : Instr) {s : State} (h : s.reqReady = true) :
    ∃ t, exec i s = .next t ∧ t.s1 = { partA s.params i with v := true } :=
  ⟨_, exec_eq i s, by simp [blockEdge_of_ready h]⟩

/-- A step that is not stopped is one clock edge, with `S1 <- StageA(req_word); S1.v <- req_valid` (R38). -/
theorem step_of_running {s : State} (h : s.stopped = none) :
    step s = .next (clockEdge s.ports.reqValid (stageA s.params s.ports.reqWord) s) := by
  cases hv : s.ports.reqValid <;> simp [step, h, hv, exec_eq, bubbleEdge, stageA]

/-- If a step answers a next state, nothing stopped it and the state is that of the edge. -/
theorem step_next {s t : State} (h : step s = .next t) :
    s.stopped = none ∧ t = clockEdge s.ports.reqValid (stageA s.params s.ports.reqWord) s := by
  cases hs : s.stopped with
  | none => rw [step_of_running hs] at h; exact ⟨rfl, (Host.Outcome.next.inj h).symm⟩
  | some x => cases x <;> simp [step, hs] at h

/-- What stops a step, in order: the host's breach of R233, an ill-formed line, a reserved status. -/
theorem stopped_none_iff (s : State) :
    s.stopped = none ↔ s.hostKeepsRequest = true ∧ s.lineFits = true ∧
      ¬ (s.ports.rst = false ∧ s.s3.v = true ∧ reservedCode s.s3.st = true) := by
  simp only [State.stopped]
  cases s.hostKeepsRequest <;> cases s.lineFits <;> cases s.ports.rst <;> cases s.s3.v <;>
    cases reservedCode s.s3.st <;> simp

/-- The step answers a fault only for a reserved status that is offered while `rst = 0` (U8). -/
theorem step_fault {s : State} {f : Fault} (h : step s = .fault f) :
    s.ports.rst = false ∧ s.s3.v = true ∧ reservedCode s.s3.st = true := by
  by_contra hn
  cases hk : s.hostKeepsRequest <;> cases hl : s.lineFits
  case true.true =>
    rw [step_of_running ((stopped_none_iff s).2 ⟨hk, hl, hn⟩)] at h
    cases h
  all_goals simp [step, State.stopped, hk, hl] at h

end Sys2Proof.Machine
end

