-- ==== Sys2Proof/Tests/Slice0.lean ====
section
/-! SUPPORT. The model's own tests. Expected values are those of the named section of spec/95_test_vectors.md or of the
named rule. After them, for each obligation with hypotheses, a witness that meets them, each clause at a boundary. -/

namespace Sys2Proof.Tests

open Sys2Proof.Machine

/-! ## Well-formedness: an ill-formed term for each check, refused -/

theorem test_defaults_wellFormed : Params.default.wellFormed = true := by decide

/-- R9: a code above 47. -/
theorem test_wf_codesInRange : (Params.mk [0, 20, 21, 48] 20 21).codesInRange = false ∧
    (Params.mk [0, 20, 21, 48] 20 21).wellFormed = false := by decide

/-- A code listed twice, and two out of order. -/
theorem test_wf_codesRising : (Params.mk [20, 20, 21] 20 21).codesRising = false ∧
    (Params.mk [21, 20] 20 21).codesRising = false ∧ (Params.mk [21, 20] 20 21).wellFormed = false := by decide

/-- R9: a spin code outside the set (each of the two), and equal spin codes. -/
theorem test_wf_spinsValid : (Params.mk [0, 21] 20 21).spinsValid = false ∧
    (Params.mk [0, 20] 20 21).spinsValid = false ∧ (Params.mk [20, 21] 20 20).spinsValid = false ∧
    (Params.mk [20, 21] 20 20).wellFormed = false := by decide

/-- R84: a value, telem, inv, code, reverse or raw operand that does not fit its field, in each line that has it. -/
theorem test_wf_operands : [
    Source.encThr 65536 0 0, .encThr 48 2 0, .encThr 48 0 2, .encThrClamp 65536 0 0, .encThrClamp 48 2 0,
    .encThrClamp 48 0 2, .encThrMin 2 0, .encThrMin 0 2, .encCmd 65536 0, .encCmd 0 2, .encRev 2 0, .encRev 0 2,
    .decErpm 65536, .encSpinNormal 2, .encSpinReversed 2, .req 2097152, .rspReady 2].all
    (fun l => !l.wellFormed && (assemble l).isNone) = true := by decide

/-- R86: n ≥ 1, of a source line and of the host's line. -/
theorem test_wf_counts : (Source.idle 0).wellFormed = false ∧ (Source.reset 0).wellFormed = false ∧
    (HostLine.idle 0).wellFormed = false ∧ (HostLine.reset 0).wellFormed = false := by decide

theorem test_idle_zero_refused : step (State.load [.idle 0]) = .refused .illFormedLine := by rfl
theorem test_reset_zero_refused : step (State.load [.reset 0]) = .refused .illFormedLine := by rfl

/-- R82: a number of 22 bits is no request. -/
theorem test_decode_wide : (match decodeNat 0x200000 with | .ok _ => false | .error r => r == .widerThanARequest) = true ∧
    decodeTableWord 24 0x200000 = none := by decide

/-! ## Decoding: a word of each operation written out bit by bit from R70 and R71: op, inv, telem, value -/

theorem test_decode_encThr : decode 0b000010000011111010000#21 = .encThr 2000#16 true false := by decide
theorem test_decode_encThrClamp : decode 0b001100000101110111000#21 = .encThrClamp 3000#16 false true := by decide
theorem test_decode_encThrMin : decode 0b010010000000000000000#21 = .encThrMin true false := by decide
theorem test_decode_encCmd : decode 0b011100000000000010100#21 = .encCmd 20#16 true := by decide
theorem test_decode_encRev : decode 0b100100000000000000001#21 = .encRev true true := by decide
theorem test_decode_decErpm : decode 0b101000000111111111110#21 = .decErpm 0x0FFE#16 := by decide
theorem test_decode_illegalOp6 : decode 0b110100000000000000001#21 = .illegalOp6 0b100000000000000001#18 := by decide
theorem test_decode_illegalOp7 : decode 0b111011111111111111110#21 = .illegalOp7 0b011111111111111110#18 := by decide

/-- R75: ignored bits set, and the operation read is the same. -/
theorem test_decode_ignored : decode 0x08ABCD#21 = .encThrMin false false ∧ decode 0x0D0000#21 = .encCmd 0#16 false ∧
    decode 0x13FFFE#21 = .encRev false true ∧ decode 0x170FFF#21 = .decErpm 0x0FFF#16 := by decide

/-- The opcode table's bit numbering is that of `req_word`. -/
theorem test_decodeTableWord : decodeTableWord 24 0x050030 = some (.encThrClamp 48#16 true false) ∧
    decodeTableWord 21 0x140FFF = some (.decErpm 0x0FFF#16) := by decide

/-! ## One step per test: the request placed, the response its entry ends in -/

/-- The response of the request that one step takes in, from reset. -/
def answer (w : Nat) : Option (Nat × Nat) :=
  match step (State.reset.withFetchWord 24 w) with
  | .next t => if t.s1.v then some (t.s1.finish.status.toNat, t.s1.finish.data.toNat) else none
  | .fault _ => none
  | .refused _ => none

/-- §2.2: telemetry and inverted. -/
theorem test_encThr_frame : answer 0x030030 = some (0, 0x0618) := by decide
/-- §2.2: one above the upper bound; one below the lower. -/
theorem test_encThr_range : answer 0x000800 = some (1, 0x0800) ∧ answer 0x00002F = some (1, 0x2F) := by decide
/-- §2.3: clamped up to 48. -/
theorem test_encThrClamp_low : answer 0x04002F = some (0, 0x0606) := by decide
/-- §2.3: the largest operand, clamped down to 2047. -/
theorem test_encThrClamp_high : answer 0x04FFFF = some (0, 0xFFEE) := by decide
/-- §2.4. -/
theorem test_encThrMin : answer 0x0B0000 = some (0, 0x0618) := by decide
/-- §2.4: the ignored `value` is all ones. -/
theorem test_encThrMin_ignores : answer 0x08FFFF = some (0, 0x0606) := by decide
/-- §2.5: code 30, inverted; its telemetry bit is 1 though `telem` is 0. -/
theorem test_encCmd_frame : answer 0x0E001E = some (0, 0x03D1) := by decide
/-- §2.5: the first code of the gap, and 48. -/
theorem test_encCmd_invalid : answer 0x0C000C = some (3, 0x0C) ∧ answer 0x0C0030 = some (3, 0x30) := by decide
/-- §2.6: reversed. -/
theorem test_encRev_reversed : answer 0x110003 = some (0, 0x02B9) := by decide
/-- §2.6: every ignored bit is 1, normal, inverted. -/
theorem test_encRev_normal : answer 0x13FFFE = some (0, 0x0294) := by decide
/-- §2.7: 600000 / 256 is rounded up, 600000 / 511 down. -/
theorem test_decErpm_rounds : answer 0x140100 = some (0, 0x0928) ∧ answer 0x1401FF = some (0, 0x0496) := by decide
/-- §2.7: the sentinel is no period; a zero mantissa under the largest exponent is an error. -/
theorem test_decErpm_special : answer 0x140FFF = some (0, 0) ∧ answer 0x140E00 = some (2, 0x0E00) := by decide
/-- R204: the whole request word comes back. -/
theorem test_illegalOp6 : answer 0x180000 = some (4, 0x180000) := by decide
/-- R204: all ones. -/
theorem test_illegalOp7 : answer 0x1FFFFF = some (4, 0x1FFFFF) := by decide

/-- R79: the number of each status. -/
theorem test_status_codes : [Status.ok, .invalidThrottle, .malformedTelemetry, .invalidCommand, .illegalOp].map
    (fun st => st.code.toNat) = [0, 1, 2, 3, 4] := by decide

/-- R78: status in bits 34 to 32, data below. -/
theorem test_pack : (Response.mk 4#3 0x180000#32).pack = 0x400180000#35 := by decide

/-! ## Text -/

/-- R84, R85: decimal, hexadecimal in both cases, a comment. -/
theorem test_parse : parseLine "ENC_THR 2000, 1, 0 ; half" = some (.encThr 2000 1 0) ∧
    parseLine "DEC_ERPM 0x0fFF" = some (.decErpm 4095) ∧ parseLine "ENC_SPIN_NORMAL 1" = some (.encSpinNormal 1) := by
  decide
/-- R85: a Boolean is written `0` or `1`; the same value as a number, spelt otherwise, is none. -/
theorem test_parse_boolean : parseLine "ENC_REV 1, 0" = some (.encRev 1 0) ∧ parseLine "ENC_REV 0x1, 0" = none ∧
    parseLine "ENC_THR 48, 0, 01" = none ∧ parseLine "RSP_READY 2" = none ∧
    parseLine "IDLE 0x1" = some (.idle 1) := by decide
/-- R85: digits of the literal's own base only, and at least one. -/
theorem test_parse_digits : parseLine "DEC_ERPM 0A" = none ∧ parseLine "DEC_ERPM 0xG" = none ∧
    parseLine "DEC_ERPM 0x" = none ∧ parseLine "DEC_ERPM 010" = some (.decErpm 10) := by decide
/-- R84: too few operands; an unknown mnemonic. -/
theorem test_parse_bad : parseLine "ENC_THR 48, 0" = none ∧ parseLine "NOP 0" = none := by decide
/-- R85: six hexadecimal digits. -/
theorem test_print : printLine (disassemble 0x08ABCD#21) = ".req 0x08ABCD" ∧
    printLine (disassemble 0x050030#21) = "ENC_THR_CLAMP 48, 1, 0" := by decide

/-! ## States for the witnesses -/

/-- Port values. -/
def ports (rst reqValid : Bool) (w : ReqWord) (rspReady : Bool) : PortsIn := ⟨rst, reqValid, w, rspReady⟩

/-- A full pipeline: in S3 the response of `ENC_THR 48, 0, 0`, in S2 and S1 two decodes. -/
def full : State := { State.reset with
  s1 := { stageA Params.default 0x140001#21 with v := true }
  s2 := { stageB (stageA Params.default 0x140E00#21) with v := true }
  s3 := { stageC (stageB (stageA Params.default 0x000030#21)) with v := true } }

/-- A state driven by one cycle of port values. -/
def drive (p : PortsIn) (s : State) : State := { s with host := ⟨[.cycle p], true, none⟩ }

/-- A host that has offered 0x000030 in vain and now withdraws it. -/
def breach : State := { full with host := ⟨[.cycle (ports false false 0x000030#21 true)], true, some 0x000030#21⟩ }

/-- A valid response with status 5. -/
def reserved : State := { drive (ports false false 0#21 true) State.reset with s3 := ⟨true, 5#3, 0#32⟩ }

/-- R27, R56: the full pipeline holds three requests' entries. -/
theorem full_faithful : full.Faithful :=
  ⟨by decide, fun _ => ⟨0x140001#21, rfl⟩, fun _ => ⟨0x140E00#21, rfl⟩, fun _ => ⟨0x000030#21, rfl⟩⟩

/-! ## Witnesses -/

theorem witness_DecoderReadsOpBitsAlone : (0x050030#21).extractLsb' 18 3 = (0x07FFFF#21 : ReqWord).extractLsb' 18 3 := by
  decide

theorem witness_IgnoredBitsHaveNoEffect :
    (0x08ABCD#21 &&& (decode 0x08ABCD#21).readMask = 0x080000#21 &&& (decode 0x08ABCD#21).readMask) ∧
    (0x13FFFE#21 &&& (decode 0x13FFFE#21).readMask = 0x120000#21 &&& (decode 0x13FFFE#21).readMask) := by decide

theorem witness_WideNumbersAreRefused : 2097151 < 2 ^ 21 ∧ 2 ^ 21 ≤ 2097152 := by decide

/-- Both sides of the equivalence, by op and by an ignored bit. -/
theorem witness_DisassemblerRoundTrip : disassemble 0x180000#21 = .req 0x180000 ∧ 6 ≤ (reqOp 0x180000#21).toNat ∧
    disassemble 0x08ABCD#21 = .req 0x08ABCD ∧ 0x08ABCD#21 &&& ~~~ (decode 0x08ABCD#21).readMask ≠ 0#21 ∧
    disassemble 0x080000#21 = .encThrMin 0 0 := by decide

theorem witness_StepRunsTheDecodedRequest :
    ((drive (ports false true 0x1FFFFF#21 true) full).stopped = none ∧
      (drive (ports false true 0x1FFFFF#21 true) full).ports.reqValid = true) ∧
    ((drive (ports false false 0#21 false) full).stopped = none ∧
      (drive (ports false false 0#21 false) full).ports.reqValid = false) := by decide

theorem witness_PlacedRequestRunsNext : ¬ (State.reset.s3.v = true ∧ 5 ≤ State.reset.s3.st.toNat) ∧
    ¬ (full.s3.v = true ∧ 5 ≤ full.s3.st.toNat) := by decide

/-- A response is held, and a request offered. -/
theorem witness_AdvanceEdgeMovesEveryStage : let s := drive (ports false true 0x000030#21 true) full
    s.stopped = none ∧ s.ports.rst = false ∧ s.stall = false ∧ s.s3.v = true ∧ s.ports.reqValid = true := by decide

theorem witness_StalledEdgeHoldsEveryStage : let s := drive (ports false true 0x000030#21 false) full
    s.stopped = none ∧ s.ports.rst = false ∧ s.stall = true := by decide

theorem witness_ResetEdgeClearsValidBits : let s := drive (ports true true 0x000030#21 true) full
    s.stopped = none ∧ s.ports.rst = true := by decide

/-- The next state's `rst` is 0. -/
theorem witness_OneResetEdgeIsEnough : ∃ t, (drive (ports true false 0#21 true) full).ports.rst = true ∧
    step (drive (ports true false 0#21 true) full) = .next t ∧ t.ports.rst = false := ⟨_, rfl, rfl, rfl⟩

/-- Each side of both equivalences. -/
theorem witness_StallAndReady : (drive (ports false false 0#21 false) full).stall = true ∧
    (drive (ports false false 0#21 true) full).stall = false ∧
    (drive (ports false false 0#21 true) full).reqReady = true ∧
    (drive (ports true false 0#21 true) full).reqReady = false ∧
    (drive (ports false false 0#21 false) full).reqReady = false := by decide

theorem witness_ResponsePortsAreDrivenFromS3 : full.s3.v = true := by decide

theorem witness_ResponseStaysUntilTaken : ∃ t, let s := drive (ports false false 0#21 false) full
    s.rspValid = true ∧ s.ports.rst = false ∧ s.ports.rspReady = false ∧ step s = .next t := ⟨_, rfl, rfl, rfl, rfl⟩

/-- Both handshakes happen, and neither does. -/
theorem witness_Handshakes :
    (drive (ports false true 0x000030#21 true) full).accepted = some 0x000030#21 ∧
    (drive (ports false true 0x000030#21 true) full).transferred = some ⟨0#3, 0x0606#32⟩ ∧
    (drive (ports false true 0x000030#21 false) full).accepted = none ∧
    (drive (ports false true 0x000030#21 false) full).transferred = none := by decide

theorem witness_AtMostThreeInFlight : let s := drive (ports false true 0x000030#21 false) full
    s.inFlight.length = 3 ∧ s.ports.rspReady = false := by decide

theorem witness_ParametersNeverChange : ∃ t, step full = .next t := ⟨_, rfl⟩

theorem witness_OneRequestAndOneResponsePerEdge : let s := drive (ports false true 0x1C0000#21 true) full
    s.ports.rst = false ∧ s.ports.rspReady = true ∧ s.ports.reqValid = true ∧ s.s3.v = true := by decide

/-- The host's next cycle after the third edge has `rst = 0` and `rsp_ready = 1`. -/
theorem witness_LatencyIsThreeEdges : ∃ t u v : State,
    let s := State.load [.request 0x000030#21, .request 0x140FFF#21, .request 0x1FFFFF#21]
    s.accepted = some 0x000030#21 ∧ step s = .next t ∧ step t = .next u ∧ step u = .next v ∧
      t.reqReady = true ∧ u.reqReady = true ∧ v.ports.rst = false ∧ v.ports.rspReady = true :=
  ⟨_, _, _, rfl, rfl, rfl, rfl, rfl, rfl, rfl, rfl⟩

/-- The request withdrawn; and a step at whose edge a request is not accepted. -/
theorem witness_ChangedRequestIsRefused : (breach.host.held = some 0x000030#21 ∧
      ¬ (breach.ports.reqValid = true ∧ breach.ports.reqWord = 0x000030#21)) ∧
    (drive (ports false true 0x000030#21 false) full).accepted = none ∧
    ∃ t, step (drive (ports false true 0x000030#21 false) full) = .next t ∧ t.host.held = some 0x000030#21 :=
  ⟨by decide, by decide, _, rfl, rfl⟩

theorem witness_ReservedStatusIsAFault : reserved.hostKeepsRequest = true ∧ reserved.lineFits = true ∧
    reserved.ports.rst = false ∧ reserved.s3.v = true ∧ 5 ≤ reserved.s3.st.toNat := by decide

/-- A state that is ready, each op's bits, and operands at the bounds of each clause. -/
theorem witness_EncThrResult : (State.load []).reqReady = true ∧
    (0x000030#21 : ReqWord).extractLsb' 18 3 = 0b000#3 ∧
    (48 ≤ (48#16).toNat ∧ (48#16).toNat ≤ 2047) ∧ (48 ≤ (2047#16).toNat ∧ (2047#16).toNat ≤ 2047) ∧
    ¬ (48 ≤ (47#16).toNat ∧ (47#16).toNat ≤ 2047) ∧ ¬ (48 ≤ (2048#16).toNat ∧ (2048#16).toNat ≤ 2047) := by decide

theorem witness_EncThrClampResult : (State.load []).reqReady = true ∧
    (0x04FFFF#21 : ReqWord).extractLsb' 18 3 = 0b001#3 := by decide

theorem witness_EncThrMinResult : (State.load []).reqReady = true ∧
    (0x08FFFF#21 : ReqWord).extractLsb' 18 3 = 0b010#3 := by decide

theorem witness_EncCmdResult : (State.load []).params.wellFormed = true ∧ (State.load []).reqReady = true ∧
    (0x0E0000#21 : ReqWord).extractLsb' 18 3 = 0b011#3 ∧
    (0#16).toNat ∈ (State.load []).params.cmdValid ∧ (30#16).toNat ∈ (State.load []).params.cmdValid ∧
    (31#16).toNat ∉ (State.load []).params.cmdValid ∧ 48 ≤ (48#16).toNat := by decide

theorem witness_EncRevResult : (State.load []).params.wellFormed = true ∧ (State.load []).reqReady = true ∧
    (0x13FFFF#21 : ReqWord).extractLsb' 18 3 = 0b100#3 := by decide

/-- The four cases of R160: too wide, the sentinel, a zero period, and the smallest and the largest period. -/
theorem witness_DecErpmResult : (State.load []).reqReady = true ∧
    (0x14FFFF#21 : ReqWord).extractLsb' 18 3 = 0b101#3 ∧ (0x1000#16).extractLsb' 12 4 ≠ 0#4 ∧
    [0x0E00#16, 0x0001#16, 0x0FFE#16].all (fun value => value.extractLsb' 12 4 == 0#4 && value != 0x0FFF#16) = true ∧
    [0x0E00, 0x0001, 0x0FFE].map (fun n => n % 512 * 2 ^ (n / 512 % 8)) = [0, 1, 65280] := by decide

theorem witness_IllegalOpResult : (State.load []).reqReady = true ∧
    (0x180000#21 : ReqWord).extractLsb' 18 3 = 0b110#3 ∧ (0x1FFFFF#21 : ReqWord).extractLsb' 18 3 = 0b111#3 := by decide

/-- A ready state, a stalled one and one in reset; exec answers a next state in each. -/
theorem witness_OperationFrame :
    (∃ t, exec (.encThrMin true false) (drive (ports false true 0x090000#21 true) full) = .next t) ∧
    (drive (ports false true 0x090000#21 true) full).reqReady = true ∧
    (∃ t, exec (.encThrMin true false) (drive (ports false true 0x090000#21 false) full) = .next t) ∧
    (drive (ports false true 0x090000#21 false) full).ports.rst = false ∧
    (drive (ports false true 0x090000#21 false) full).stall = true ∧
    (∃ t, exec (.encThrMin true false) (drive (ports true true 0x090000#21 true) full) = .next t) ∧
    (drive (ports true true 0x090000#21 true) full).ports.rst = true :=
  ⟨⟨_, rfl⟩, rfl, ⟨_, rfl⟩, rfl, rfl, ⟨_, rfl⟩, rfl⟩

/-- An operation that fails and one that does not. -/
theorem witness_ErrorsAffectNothingElse : ∃ t u, exec (.encThr 47#16 false false) full = .next t ∧
    exec (.encThr 48#16 false false) full = .next u := ⟨_, _, rfl, rfl⟩

theorem witness_StepIsAnInOrderQueue :
    (∃ t, step (drive (ports true true 0x000030#21 true) full) = .next t) ∧
    (drive (ports true true 0x000030#21 true) full).ports.rst = true ∧
    (∃ t, step (drive (ports false true 0x000030#21 true) full) = .next t) ∧
    (drive (ports false true 0x000030#21 true) full).ports.rst = false := ⟨⟨_, rfl⟩, rfl, ⟨_, rfl⟩, rfl⟩

/-- One step that accepts and transfers. -/
theorem witness_OneResponsePerRequestInOrder : ∃ o,
    observe 1 (drive (ports false true 0x000030#21 true) full) = some o ∧ o.sawReset = false := ⟨_, rfl, rfl⟩

/-- One run with `rsp_ready` 1 and one with it 0, of different lengths, that accept the same word. -/
theorem witness_ResponsesDependOnWordsAlone : ∃ o q : Observed,
    (State.load [.request 0x000030#21]).params = (State.load [.rspReady false, .request 0x000030#21]).params ∧
    (State.load [.request 0x000030#21]).inFlight = [] ∧
    (State.load [.rspReady false, .request 0x000030#21]).inFlight = [] ∧
    observe 1 (State.load [.request 0x000030#21]) = some o ∧
    observe 2 (State.load [.rspReady false, .request 0x000030#21]) = some q ∧
    o.sawReset = false ∧ q.sawReset = false ∧ o.accepted = q.accepted :=
  ⟨_, _, rfl, rfl, rfl, rfl, rfl, rfl, rfl, rfl⟩

/-- Two states that differ in the data of S1's bubble, with a valid response in S3. -/
theorem witness_BubblesCannotBeSeen : State.Same { full with s1 := S1.zero } { full with s1 := S1.afterReset } ∧
    S1.zero ≠ S1.afterReset :=
  ⟨⟨⟨rfl, fun h => by cases h⟩, ⟨rfl, fun _ => rfl⟩, ⟨rfl, fun _ => rfl⟩, rfl, rfl⟩, by decide⟩

theorem witness_StepKeepsFaithful : full.Faithful ∧ ∃ t, step full = .next t := ⟨full_faithful, _, rfl⟩

theorem witness_FaithfulNeverFaults : full.Faithful ∧ full.rspValid = true := ⟨full_faithful, rfl⟩

/-- S1 and S2 hold the entries of one request word. -/
def holding (w : ReqWord) : State := { State.reset with
  s1 := { stageA Params.default w with v := true }
  s2 := { stageB (stageA Params.default w) with v := true } }

theorem holding_faithful (w : ReqWord) : (holding w).Faithful :=
  ⟨test_defaults_wellFormed, fun _ => ⟨w, rfl⟩, fun _ => ⟨w, rfl⟩, fun h => by cases h⟩

/-- States of each clause: an encode, an error, a sentinel, and readings of the smallest and the largest period. -/
theorem witness_EntriesHoldOnlyTheirOwnFields : (∀ w, (holding w).Faithful ∧ (holding w).s1.v = true ∧ (holding w).s2.v = true) ∧
    (holding 0x000030#21).s2.st = 0#3 ∧ (holding 0x000030#21).s2.dec = false ∧
    (holding 0x00002F#21).s1.st ≠ 0#3 ∧ (holding 0x140FFF#21).s2.sent = true ∧
    (holding 0x140001#21).s2.st = 0#3 ∧ (holding 0x140001#21).s2.dec = true ∧ (holding 0x140001#21).s2.sent = false ∧
    (holding 0x140FFE#21).s2.period.toNat = 65280 :=
  ⟨fun w => ⟨holding_faithful w, rfl, rfl⟩, by decide⟩

/-- A program of R86 with a request held, and a step of it. -/
theorem witness_ProgramHostKeepsItsDuty :
    State.FollowsProgram { full with host := ⟨[.request 0x000030#21, .idle 1, .reset 1], false, some 0x000030#21⟩ } ∧
    ∃ t, step { full with host := ⟨[.request 0x000030#21, .idle 1, .reset 1], false, some 0x000030#21⟩ } = .next t :=
  ⟨⟨by decide, fun w h => by cases h; rfl⟩, _, rfl⟩

/-- A line of each kind at the head, the last cycle of IDLE and RESET and one before it, an RSP_READY line with a request
behind it and a trailing one, a request both accepted and not: nothing stops the step of any. -/
theorem witness_ProgramLinesDriveThePorts :
    ([[.request 0x000030#21], [.idle 2], [.idle 1], [.reset 2], [.reset 1], [.rspReady false, .request 0x000030#21],
      [.rspReady false], []] : List (List HostLine)).all (fun prog => (State.load prog).stopped = none) = true ∧
    (State.load [.request 0x000030#21]).reqReady = true ∧
    ({ full with host := ⟨[.request 0x000030#21], false, none⟩ } : State).reqReady = false ∧
    ({ full with host := ⟨[.request 0x000030#21], false, none⟩ } : State).stopped = none := by decide

theorem witness_AssembledProgramsRunAndAreAnswered :
    assembleAll [.encThr 48 0 0, .idle 1, .rspReady 0, .encSpinNormal 1] =
      some [.request 0x000030#21, .idle 1, .rspReady false, .request 0x120000#21] ∧
    ∃ o, observe 1 (State.load [.request 0x000030#21, .idle 1, .rspReady false, .request 0x120000#21]) = some o ∧
      o.sawReset = false := ⟨by decide, _, rfl, rfl⟩

/-- Each kind of operation at its clause, with status OK. -/
theorem witness_OkEncodeResponsesAreFrames : ([.encThr 48#16 false true, .encThrClamp 0#16 true false,
    .encThrMin true true, .encCmd 20#16 true, .encRev true false] : List Instr).all
    (fun i => (partA Params.default i).finish.status == 0#3) = true := by decide

theorem witness_ThrottleAndCommandPayloadsAreDisjoint : Params.default.wellFormed = true ∧
    ([.encThr 2047#16 false false, .encThrClamp 0#16 false false, .encThrMin false false, .encCmd 30#16 false,
      .encRev false false] : List Instr).all (fun i => (partA Params.default i).finish.status == 0#3) = true := by decide

/-- Both sides of the range, and an OK response of each of the three. -/
theorem witness_ThrottleFamilyLaws : (48 ≤ (2047#16).toNat ∧ (2047#16).toNat ≤ 2047) ∧
    ¬ (48 ≤ (2048#16).toNat ∧ (2048#16).toNat ≤ 2047) ∧
    ([.encThr 2047#16 true false, .encThrClamp 2047#16 true false, .encThrMin true false] : List Instr).all
      (fun i => (partA Params.default i).finish.status == 0#3) = true := by decide

theorem witness_CommandFamilyLaw : Params.default.wellFormed = true ∧
    (partA Params.default (.encCmd 30#16 false)).finish.status = 0#3 ∧
    (partA Params.default (.encRev true true)).finish.status = 0#3 := by decide

/-- The bounds of the range, and a tie. -/
theorem witness_DivideRoundsHalfUp : (1 ≤ (1#16).toNat ∧ (1#16).toNat ≤ 65408) ∧
    (1 ≤ (65408#16).toNat ∧ (65408#16).toNat ≤ 65408) ∧ 2 * (600000 % (128#16).toNat) = (128#16).toNat := by decide

theorem witness_SentinelIsDistinguishable : (partA Params.default (.decErpm 0x0FFF#16)).finish.status = 0#3 ∧
    (partA Params.default (.decErpm 0x0FFE#16)).finish.status = 0#3 := by decide

theorem witness_ZeroPeriodReadings : (0x0E00#16).extractLsb' 12 4 = 0#4 ∧ (0x0E01#16).extractLsb' 12 4 = 0#4 := by decide

theorem witness_DecodeIsMonotonic : 0x001#12 ≠ 0xFFF#12 ∧ 0xFFE#12 ≠ 0xFFF#12 ∧ periodOf 0x001#12 ≠ 0#16 ∧
    (periodOf 0x001#12).toNat ≤ (periodOf 0xFFE#12).toNat := by decide

/-- A request of each status. -/
theorem witness_StatusesAndTheirData : [0x000030#21, 0x00002F#21, 0x140000#21, 0x0C000C#21, 0x180000#21].map
    (fun w => (stageA Params.default w).finish.status.toNat) = [0, 1, 2, 3, 4] := by decide

end Sys2Proof.Tests
end

/-! The response an operation's S1 entry ends in is its pure function (R15, R56), and no entry of part A ends in
a reserved status (R81). -/

namespace Sys2Proof.Machine

/-! ## The operands as numbers -/

/-- The low 11 bits of a value field, as the pure functions of R120 and R140 write them. -/
theorem payloadOf_eq_ofNat (value : Operand) : payloadOf value = BitVec.ofNat 11 value.toNat := by
  apply BitVec.eq_of_toNat_eq
  simp [payloadOf]

theorem mantissa_toNat (raw : Raw) : (mantissa raw).toNat = raw.toNat % 512 := by
  simp [mantissa]

theorem exponent_toNat (raw : Raw) : (exponent raw).toNat = raw.toNat / 512 := by
  have h := raw.isLt
  rw [exponent, BitVec.extractLsb'_toNat, Nat.shiftRight_eq_div_pow]
  omega

/-- The period keeps every bit of the shifted mantissa (R161). -/
theorem periodOf_toNat (raw : Raw) : (periodOf raw).toNat = raw.toNat % 512 * 2 ^ (raw.toNat / 512) := by
  have hraw := raw.isLt
  have hpow : 2 ^ (raw.toNat / 512) ≤ 2 ^ 7 := Nat.pow_le_pow_right (by decide) (by omega)
  have hlt : raw.toNat % 512 * 2 ^ (raw.toNat / 512) < 2 ^ 16 :=
    calc raw.toNat % 512 * 2 ^ (raw.toNat / 512)
      _ ≤ 511 * 2 ^ 7 := Nat.mul_le_mul (by omega) hpow
      _ < 2 ^ 16 := by decide
  rw [periodOf, BitVec.toNat_shiftLeft, BitVec.toNat_setWidth, mantissa_toNat, exponent_toNat, Nat.shiftLeft_eq,
    Nat.mod_eq_of_lt (show raw.toNat % 512 < 2 ^ 16 by omega), Nat.mod_eq_of_lt hlt]

/-- A value field is a 12-bit reading when its number is below 4096 (R160). -/
theorem isReading_iff_toNat (value : Operand) : isReading value = true ↔ value.toNat / 2 ^ 12 = 0 := by
  have h := value.isLt
  rw [isReading_iff, ← BitVec.toNat_inj, BitVec.extractLsb'_toNat, Nat.shiftRight_eq_div_pow,
    Nat.mod_eq_of_lt (by omega)]
  rfl

/-- A 12-bit reading passes into the raw value whole (R160). -/
theorem rawOf_toNat {value : Operand} (h : isReading value = true) : (rawOf value).toNat = value.toNat := by
  have hlt := (isReading_iff_toNat value).1 h
  rw [rawOf, BitVec.extractLsb'_toNat, Nat.shiftRight_zero, Nat.mod_eq_of_lt (by omega)]

/-- The sentinel as a number (R8). -/
theorem eq_erpmNoData_iff (raw : Raw) : raw = Config.erpmNoData ↔ raw.toNat = 0x0FFF := by
  rw [← BitVec.toNat_inj]
  rfl

/-! ## Each operation's entry ends in its pure response -/

theorem finish_partAEncThr (value : Operand) (telem inv : Bool) :
    (partAEncThr value telem inv).finish = pureEncThr value telem inv := by
  unfold partAEncThr pureEncThr
  by_cases h : 48 ≤ value.toNat ∧ value.toNat ≤ 2047
  · rw [if_pos ((throttleInRange_iff value).2 h), if_pos h, payloadOf_eq_ofNat, finish_encode]
    rfl
  · rw [if_neg (h ∘ (throttleInRange_iff value).1), if_neg h, finish_raise (by decide)]
    rfl

theorem finish_partAEncCmd (p : Params) (code : Operand) (inv : Bool) :
    (partAEncCmd p code inv).finish = pureEncCmd p code inv := by
  unfold partAEncCmd pureEncCmd
  by_cases h : code.toNat ∈ p.cmdValid
  · rw [if_pos ((isCommand_iff p code).2 h), if_pos h, payloadOf_eq_ofNat, finish_encode]
    rfl
  · rw [if_neg (h ∘ (isCommand_iff p code).1), if_neg h, finish_raise (by decide)]
    rfl

/-- A reading that is not the sentinel, by its period as a number: the error of a zero period, or the quotient (R160). -/
theorem finish_reading_of_period {raw : Raw} {p : Nat} (h : (periodOf raw).toNat = p) :
    (S1.reading raw false).finish =
      if p = 0 then .error .malformedTelemetry (BitVec.ofNat 32 raw.toNat)
      else .ok (BitVec.ofNat 32 ((600000 + p / 2) / p)) := by
  subst h
  rw [finish_reading, BitVec.ofNat_toNat]
  by_cases hz : (periodOf raw).toNat = 0
  · rw [if_pos (BitVec.eq_of_toNat_eq hz), if_pos hz]
  · rw [if_neg (fun he => hz (by rw [he]; rfl)), if_neg hz, erpmDivide_of_ne_zero hz]

theorem finish_partADecErpm (value : Operand) : (partADecErpm value).finish = pureDecErpm value := by
  unfold partADecErpm pureDecErpm
  by_cases hr : isReading value = true
  · have hlt := (isReading_iff_toNat value).1 hr
    rw [if_pos hr, if_neg (not_not_intro hlt)]
    by_cases hs : value.toNat = 0x0FFF
    · rw [if_pos hs, beq_iff_eq.2 ((eq_erpmNoData_iff _).2 ((rawOf_toNat hr).trans hs)), finish_sentinel]
    · have hns : rawOf value ≠ Config.erpmNoData := fun he =>
        hs ((rawOf_toNat hr).symm.trans ((eq_erpmNoData_iff _).1 he))
      have hexp : value.toNat / 2 ^ 9 % 2 ^ 3 = value.toNat / 512 := by omega
      rw [if_neg hs, beq_eq_false_iff_ne.2 hns, finish_reading_of_period (periodOf_toNat _), rawOf_toNat hr, hexp]
      rfl
  · rw [if_neg hr, if_pos (hr ∘ (isReading_iff_toNat value).2), finish_raise (by decide)]
    exact congrArg _ (BitVec.ofNat_toNat 32 value).symm

/-- The staged evaluation of an operation is its pure function (R15). -/
theorem finish_partA (p : Params) (i : Instr) : (partA p i).finish = pureResponse p i := by
  cases i with
  | encThr value telem inv => exact finish_partAEncThr value telem inv
  | encThrClamp value telem inv => exact finish_encode _ _ _
  | encThrMin telem inv => exact finish_encode _ _ _
  | encCmd code inv => exact finish_partAEncCmd p code inv
  | encRev reverse inv => exact finish_encode _ _ _
  | decErpm value => exact finish_partADecErpm value
  | illegalOp6 w => exact finish_raise (by decide) _
  | illegalOp7 w => exact finish_raise (by decide) _

/-- The entry stage A makes of a request word ends in `Op` of the word (R15, R56). -/
theorem finish_stageA (p : Params) (w : ReqWord) : (stageA p w).finish = opResponse p w :=
  finish_partA p (decode w)

/-- Settles O35: by the kind of operation, each entry that part A makes ends in the operation's pure response. -/
theorem stagesComposeToOp : Obligations.StagesComposeToOp := fun p w => finish_stageA p w

/-! ## No reserved status (R81) -/

/-- The three kinds of entry that part A makes (R31). -/
theorem partA_cases (p : Params) (i : Instr) :
    (∃ pay tel inv, partA p i = S1.encode pay tel inv) ∨
    (∃ raw, partA p i = S1.reading raw (raw == Config.erpmNoData)) ∨
    (∃ st d, st ≠ .ok ∧ partA p i = S1.raise st d) := by
  cases i with
  | encThr value telem inv =>
    by_cases h : throttleInRange value = true
    · exact .inl ⟨_, _, _, if_pos h⟩
    · exact .inr (.inr ⟨_, _, by decide, if_neg h⟩)
  | encThrClamp value telem inv => exact .inl ⟨_, _, _, rfl⟩
  | encThrMin telem inv => exact .inl ⟨_, _, _, rfl⟩
  | encCmd code inv =>
    by_cases h : isCommand p code = true
    · exact .inl ⟨_, _, _, if_pos h⟩
    · exact .inr (.inr ⟨_, _, by decide, if_neg h⟩)
  | encRev reverse inv => exact .inl ⟨_, _, _, rfl⟩
  | decErpm value =>
    by_cases h : isReading value = true
    · exact .inr (.inl ⟨_, if_pos h⟩)
    · exact .inr (.inr ⟨_, _, by decide, if_neg h⟩)
  | illegalOp6 w => exact .inr (.inr ⟨_, _, by decide, rfl⟩)
  | illegalOp7 w => exact .inr (.inr ⟨_, _, by decide, rfl⟩)

/-- Every status of R79 is numbered 4 or less. -/
theorem Status.code_le (st : Status) : st.code.toNat ≤ 4 := by
  cases st <;> decide

/-- An entry that part A makes ends in a status of R79 (R81). -/
theorem finish_partA_status_le (p : Params) (i : Instr) : (partA p i).finish.status.toNat ≤ 4 := by
  rcases partA_cases p i with ⟨pay, tel, inv, h⟩ | ⟨raw, h⟩ | ⟨st, d, hst, h⟩ <;> rw [h]
  · exact Status.code_le .ok
  · cases raw == Config.erpmNoData
    · rw [finish_reading]
      split
      · exact Status.code_le .malformedTelemetry
      · exact Status.code_le .ok
    · exact Status.code_le .ok
  · rw [finish_raise hst]
    exact Status.code_le st

end Sys2Proof.Machine

/-! The invariants of a run: the pipeline holds entries of accepted requests (R27, R31 to R33), and a host that does
R86's lines keeps its duty (R233); with both, nothing stops a step. -/

namespace Sys2Proof.Machine

/-! ## Faithful -/

/-- A pipeline of bubbles meets the invariant, whatever the bubbles hold. -/
theorem faithful_of_bubbles {s : State} (hp : s.params.wellFormed = true) (h1 : s.s1.v = false) (h2 : s.s2.v = false)
    (h3 : s.s3.v = false) : s.Faithful where
  params := hp
  s1 h := absurd h (by simp [h1])
  s2 h := absurd h (by simp [h2])
  s3 h := absurd h (by simp [h3])

/-- Settles O40: after reset all three stages are bubbles, and the default parameters meet R9. -/
theorem faithfulAfterReset : Obligations.FaithfulAfterReset := fun _ =>
  faithful_of_bubbles (show Params.default.wellFormed = true by decide) rfl rfl rfl

/-- Whether a state is faithful depends on its stages and parameters alone. -/
theorem State.Faithful.congr {s t : State} (h : s.Faithful) (h1 : t.s1 = s.s1) (h2 : t.s2 = s.s2) (h3 : t.s3 = s.s3)
    (hp : t.params = s.params) : t.Faithful where
  params := by rw [hp]; exact h.params
  s1 := by rw [h1, hp]; exact h.s1
  s2 := by rw [h2, hp]; exact h.s2
  s3 := by rw [h3, hp]; exact h.s3

/-- An advancing edge hands each entry to the next stage, which applies its function (R38). -/
theorem State.Faithful.advance {s : State} (h : s.Faithful) (valid : Bool) (w : ReqWord) :
    (s.advance valid (stageA s.params w)).Faithful where
  params := h.params
  s1 hv := by
    obtain rfl : valid = true := hv
    exact ⟨w, rfl⟩
  s2 hv := by
    have hv' : s.s1.v = true := hv
    obtain ⟨w', hw⟩ := h.s1 hv'
    exact ⟨w', by rw [advance_s2, hw]; rfl⟩
  s3 hv := by
    have hv' : s.s2.v = true := hv
    obtain ⟨w', hw⟩ := h.s2 hv'
    exact ⟨w', by rw [advance_s3, hw]; rfl⟩

/-- Every step keeps the pipeline's invariant. -/
theorem State.Faithful.of_step {s t : State} (h : s.Faithful) (hst : step s = .next t) : t.Faithful := by
  obtain ⟨-, rfl⟩ := step_next hst
  suffices hb : (s.blockEdge s.ports.reqValid (stageA s.params s.ports.reqWord)).Faithful from
    hb.congr rfl rfl rfl rfl
  rcases blockEdge_cases s s.ports.reqValid (stageA s.params s.ports.reqWord) with
    ⟨-, hb⟩ | ⟨-, -, hb⟩ | ⟨-, -, hb⟩
  · rw [hb]; exact faithful_of_bubbles h.params rfl rfl rfl
  · rw [hb]; exact h
  · rw [hb]; exact h.advance _ _

/-- An offered response of a faithful pipeline has a status of R79 (R81). -/
theorem State.Faithful.status_le {s : State} (h : s.Faithful) (hv : s.s3.v = true) : s.s3.st.toNat ≤ 4 := by
  obtain ⟨w, hw⟩ := h.s3 hv
  rw [hw]
  exact finish_partA_status_le s.params (decode w)

/-! ## A host that does R86's lines -/

/-- A line of a program is one R86 allows. -/
theorem wellFormed_of_ofProgram {l : HostLine} (h : l.ofProgram = true) : l.wellFormed = true := by
  cases l with
  | idle n => exact h
  | reset n => exact h
  | _ => rfl

/-- In a program only a request line at the head drives `req_valid = 1`, and with it the line's word. -/
theorem head_request_of_reqValid {draw : Nat} {ls : List HostLine} {b : Bool} (h : ∀ l ∈ ls, l.ofProgram = true)
    (hv : (drivenPorts draw (ls, b)).reqValid = true) :
    ls.head? = some (.request (drivenPorts draw (ls, b)).reqWord) := by
  cases ls with
  | nil => cases hv
  | cons l rest =>
    cases l with
    | request w => rfl
    | cycle p => cases h _ List.mem_cons_self
    | idle n => cases hv
    | reset n => cases hv
    | rspReady c => cases hv

/-- What is left of a program after an edge is a program: an IDLE or RESET line that goes on keeps a count of at
least 1. -/
theorem linesAfter_ofProgram {ls : List HostLine} (h : ∀ l ∈ ls, l.ofProgram = true) (accepted : Bool) :
    ∀ l ∈ linesAfter accepted ls, l.ofProgram = true := by
  cases ls with
  | nil => exact h
  | cons l rest =>
    obtain ⟨-, hrest⟩ := List.forall_mem_cons.1 h
    cases l with
    | request w =>
      cases accepted
      · exact h
      · exact hrest
    | idle n =>
      rw [linesAfter]
      split
      · exact hrest
      · exact List.forall_mem_cons.2 ⟨decide_eq_true (by omega), hrest⟩
    | reset n =>
      rw [linesAfter]
      split
      · exact hrest
      · exact List.forall_mem_cons.2 ⟨decide_eq_true (by omega), hrest⟩
    | rspReady b => exact hrest
    | cycle p => exact hrest

/-- A request line that is not accepted stays where it is (R86). -/
theorem linesAfter_of_head_request {ls : List HostLine} {w : ReqWord} (h : ls.head? = some (.request w)) :
    linesAfter false ls = ls := by
  obtain ⟨rest, rfl⟩ := List.head?_eq_some_iff.1 h
  rfl

/-- The settled lines of a program are lines of it. -/
theorem State.FollowsProgram.settled {s : State} (h : s.FollowsProgram) :
    ∀ l ∈ (settle s.host.prog s.host.rspReady).1, l.ofProgram = true :=
  fun l hl => h.lines l (settle_subset _ _ l hl)

/-- The host after an edge still follows its program (R86, R233). -/
theorem State.FollowsProgram.of_step {s t : State} (h : s.FollowsProgram) (hst : step s = .next t) :
    t.FollowsProgram := by
  obtain ⟨-, rfl⟩ := step_next hst
  refine ⟨linesAfter_ofProgram h.settled _, fun w hw => ?_⟩
  rw [clockEdge_host] at hw ⊢
  simp only [State.hostAfter, Option.ite_none_right_eq_some, Bool.and_eq_true, Bool.not_eq_true',
    Option.some.injEq] at hw ⊢
  obtain ⟨⟨hv, ha⟩, rfl⟩ := hw
  have hhead := head_request_of_reqValid h.settled hv
  rw [ha, linesAfter_of_head_request hhead]
  exact hhead

/-- A host that follows its program still offers the request it holds (R233). -/
theorem State.FollowsProgram.hostKeepsRequest {s : State} (h : s.FollowsProgram) : s.hostKeepsRequest = true := by
  unfold State.hostKeepsRequest
  split
  · rfl
  · next w hw =>
    obtain ⟨rest, hprog⟩ := List.head?_eq_some_iff.1 (h.held w hw)
    simp [State.ports, hprog, settle, drivenPorts]

/-- The current line of a program is one R86 allows. -/
theorem State.FollowsProgram.lineFits {s : State} (h : s.FollowsProgram) : s.lineFits = true := by
  rw [State.lineFits, Option.all_eq_true]
  exact fun l hl => wellFormed_of_ofProgram (h.settled l (List.mem_of_mem_head? hl))

/-- Nothing stops a step of a faithful pipeline under a host that follows its program. -/
theorem exists_step {s : State} (hf : s.Faithful) (hh : s.FollowsProgram) : ∃ t, step s = .next t := by
  refine ⟨_, step_of_running ((stopped_none_iff s).2 ⟨hh.hostKeepsRequest, hh.lineFits, ?_⟩)⟩
  rintro ⟨-, hv, hr⟩
  have hle := hf.status_le hv
  have hge := (reservedCode_iff s.s3.st).1 hr
  omega

end Sys2Proof.Machine

/-! A step is one move of an in-order queue, a run is many (R56), and a program that assembles runs and is answered
(R86). -/

namespace Sys2Proof.Machine

/-! ## The queue of one step (R56) -/

@[simp] theorem clockEdge_inFlight (valid : Bool) (a : S1) (s : State) :
    (clockEdge valid a s).inFlight = (s.blockEdge valid a).inFlight := rfl

/-- An advancing edge takes S3's response off the requests in flight and puts the entry taken in on (R38). -/
theorem inFlight_advance (s : State) (valid : Bool) (a : S1) :
    (if s.s3.v then [s.s3.response] else []) ++ (s.advance valid a).inFlight =
      s.inFlight ++ if valid then [a.finish] else [] := by
  simp only [State.inFlight, List.append_assoc]
  rfl

/-- On a stalled edge no handshake happens (R35, R39). -/
theorem handshakes_of_stall {s : State} (h : s.stall = true) : s.accepted = none ∧ s.transferred = none := by
  obtain ⟨-, hrsp⟩ : s.s3.v = true ∧ s.ports.rspReady = false := by simpa [State.stall] using h
  simp [State.accepted, State.transferred, State.reqReady, h, hrsp]

/-- On an edge with neither reset nor stall S3's response, if there is one, is transferred (R54). -/
theorem transferred_of_ready {s : State} (h : s.reqReady = true) :
    s.transferred.toList = if s.s3.v then [s.s3.response] else [] := by
  obtain ⟨hr, hs⟩ := (reqReady_iff s).1 h
  cases hv : s.s3.v
  · simp [State.transferred, hv]
  · simp only [State.stall, hv, Bool.true_and, Bool.not_eq_false'] at hs
    simp [State.transferred, hv, hr, hs]

/-- On an edge with neither reset nor stall the request that is offered, if one is, is accepted (R53). -/
theorem accepted_of_ready {s : State} (h : s.reqReady = true) :
    s.accepted.toList = if s.ports.reqValid then [s.ports.reqWord] else [] := by
  cases hv : s.ports.reqValid <;> simp [State.accepted, hv, h]

/-- A step with no reset takes the oldest response off when it is transferred, and puts that of the accepted
request on. -/
theorem step_queue {s t : State} (hst : step s = .next t) (hr : s.ports.rst = false) :
    s.transferred.toList ++ t.inFlight = s.inFlight ++ s.accepted.toList.map (opResponse s.params) := by
  obtain ⟨-, rfl⟩ := step_next hst
  rw [clockEdge_inFlight]
  cases hs : s.stall
  case true =>
    obtain ⟨ha, ht⟩ := handshakes_of_stall hs
    rw [blockEdge_of_stall hr hs, ha, ht]
    simp
  case false =>
    have hready := (reqReady_iff s).2 ⟨hr, hs⟩
    rw [blockEdge_of_ready hready, transferred_of_ready hready, accepted_of_ready hready, inFlight_advance,
      finish_stageA]
    cases s.ports.reqValid <;> rfl

/-- No step changes the parameters (R237). -/
theorem step_params {s t : State} (hst : step s = .next t) : t.params = s.params := by
  obtain ⟨-, rfl⟩ := step_next hst
  exact clockEdge_params _ _ _

/-! ## Runs -/

/-- A run of one step more, from its first step and the run after it. -/
theorem observe_succ_of_next {k : Nat} {s t : State} {o : Observed} (hst : step s = .next t) (ho : observe k t = some o) :
    observe (k + 1) s = some ⟨s.accepted.toList ++ o.accepted, s.transferred.toList ++ o.responses,
      s.ports.rst || o.sawReset, o.final⟩ := by
  simp [observe, hst, ho]

/-- A run of one step more is a step and a run after it. -/
theorem observe_succ {k : Nat} {s : State} {q : Observed} (h : observe (k + 1) s = some q) :
    ∃ t o, step s = .next t ∧ observe k t = some o ∧
      q = ⟨s.accepted.toList ++ o.accepted, s.transferred.toList ++ o.responses, s.ports.rst || o.sawReset,
        o.final⟩ := by
  rw [observe] at h
  split at h
  · next t hst =>
    split at h
    · next o ho => exact ⟨t, o, hst, ho, (Option.some.inj h).symm⟩
    · cases h
  · cases h
  · cases h

/-- A run with no reset edge answers the requests in flight at its start and those it accepts, in order (R56). -/
theorem observe_queue {k : Nat} {s : State} {q : Observed} (h : observe k s = some q) (hr : q.sawReset = false) :
    q.responses ++ q.final.inFlight = s.inFlight ++ q.accepted.map (opResponse s.params) := by
  induction k generalizing s q with
  | zero =>
    obtain rfl := Option.some.inj h
    simp
  | succ k ih =>
    obtain ⟨t, o, hst, ho, rfl⟩ := observe_succ h
    obtain ⟨hrst, hro⟩ := Bool.or_eq_false_iff.1 hr
    calc s.transferred.toList ++ o.responses ++ o.final.inFlight
      _ = s.transferred.toList ++ t.inFlight ++ o.accepted.map (opResponse s.params) := by
        rw [List.append_assoc, ih ho hro, step_params hst, List.append_assoc]
      _ = s.inFlight ++ (s.accepted.toList ++ o.accepted).map (opResponse s.params) := by
        rw [step_queue hst hrst, List.append_assoc, List.map_append]

/-- A faithful pipeline under a host that follows its program runs for any number of edges. -/
theorem exists_observe (k : Nat) {s : State} (hf : s.Faithful) (hh : s.FollowsProgram) : ∃ o, observe k s = some o := by
  induction k generalizing s with
  | zero => exact ⟨_, rfl⟩
  | succ k ih =>
    obtain ⟨t, hst⟩ := exists_step hf hh
    obtain ⟨o, ho⟩ := ih (hf.of_step hst) (hh.of_step hst)
    exact ⟨_, observe_succ_of_next hst ho⟩

/-! ## Programs that assemble -/

/-- What a source line assembles to is a line of R86, with n ≥ 1. -/
theorem assemble_ofProgram {l : Source} {hl : HostLine} (h : assemble l = some hl) : hl.ofProgram = true := by
  simp only [assemble, Option.ite_none_right_eq_some, Option.some.injEq] at h
  obtain ⟨hfits, rfl⟩ := h
  cases l with
  | idle n => exact hfits
  | reset n => exact hfits
  | _ => rfl

theorem assembleAll_ofProgram {lines : List Source} {prog : List HostLine} (h : assembleAll lines = some prog) :
    ∀ hl ∈ prog, hl.ofProgram = true := by
  induction lines generalizing prog with
  | nil =>
    obtain rfl := Option.some.inj h
    simp
  | cons l lines ih =>
    simp only [assembleAll, List.mapM_cons, Option.bind_eq_bind, Option.bind_eq_some_iff, Option.pure_def,
      Option.some.injEq] at h
    obtain ⟨hl, hline, rest, hrest, rfl⟩ := h
    exact List.forall_mem_cons.2 ⟨assemble_ofProgram hline, ih hrest⟩

/-- After a program is loaded its host follows it, and holds no request yet. -/
theorem load_followsProgram {prog : List HostLine} (h : ∀ l ∈ prog, l.ofProgram = true) :
    (State.load prog).FollowsProgram :=
  ⟨h, fun _ hw => nomatch hw⟩

/-- Settles O46: the loaded state meets both invariants, so no step stops; and the run is that of an in-order queue that
is empty at its start. -/
theorem assembledProgramsRunAndAreAnswered : Obligations.AssembledProgramsRunAndAreAnswered := by
  intro lines prog k hasm
  obtain ⟨o, ho⟩ := exists_observe k (faithfulAfterReset prog) (load_followsProgram (assembleAll_ofProgram hasm))
  exact ⟨o, ho, observe_queue ho⟩

end Sys2Proof.Machine

/-! What a step does to the whole state: the ports and the three kinds of edge (R34 to R40), what every operation leaves
unchanged (R55), what the fields of an entry hold (R28, R29, R31), and that no port shows what a bubble holds (U6). -/

namespace Sys2Proof.Machine

/-! ## Each kind of edge (R37 to R39) -/

@[simp] theorem resetEdge_inFlight (s : State) : s.resetEdge.inFlight = [] := rfl
@[simp] theorem resetEdge_rspValid (s : State) : s.resetEdge.rspValid = false := rfl
@[simp] theorem clockEdge_rspValid (valid : Bool) (a : S1) (s : State) :
    (clockEdge valid a s).rspValid = (s.blockEdge valid a).rspValid := rfl

/-- In a cycle with `rst = 1` the block is not ready, so no handshake happens (R35, R231). -/
theorem handshakes_of_rst {s : State} (h : s.ports.rst = true) :
    s.reqReady = false ∧ s.accepted = none ∧ s.transferred = none := by
  have hready : s.reqReady = false := by simp [State.reqReady, h]
  simp [State.accepted, State.transferred, hready, h]

/-- With no response held the block does not stall, so it is ready once it is not reset (R35, R36). -/
theorem reqReady_of_no_response {s : State} (hv : s.rspValid = false) (hr : s.ports.rst = false) : s.reqReady = true := by
  have hv' : s.s3.v = false := hv
  exact (reqReady_iff s).2 ⟨hr, by simp [State.stall, hv']⟩

theorem stall_iff (s : State) : s.stall = true ↔ s.s3.v = true ∧ s.ports.rspReady = false := by
  simp [State.stall]

/-- Settles O33: an operation's meaning is one clock edge, which advances, holds or resets. -/
theorem operationFrame : Obligations.OperationFrame := by
  intro i s t h
  rw [exec_eq] at h
  obtain rfl := Host.Outcome.next.inj h
  refine ⟨clockEdge_params _ _ _, rfl, rfl, fun hready => ?_, fun hr hs => ?_, fun hr => ?_⟩
  · simp [blockEdge_of_ready hready]
  · simp [blockEdge_of_stall hr hs]
  · simp [blockEdge_of_rst hr]

/-- Settles O11: the edge advances, and both handshakes happen where there is something to hand over. -/
theorem advanceEdgeMovesEveryStage : Obligations.AdvanceEdgeMovesEveryStage := by
  intro s hrun hr hs
  have hready := (reqReady_iff s).2 ⟨hr, hs⟩
  refine ⟨_, step_of_running hrun, ?_, ?_, ?_, fun hv => ?transferred, fun hv => ?accepted⟩
  case transferred => exact Option.toList_eq_singleton_iff.1 ((transferred_of_ready hready).trans (if_pos hv))
  case accepted => exact Option.toList_eq_singleton_iff.1 ((accepted_of_ready hready).trans (if_pos hv))
  all_goals simp [blockEdge_of_ready hready]

/-- Settles O12: a stalled edge leaves the block's state as it is, and no handshake happens. -/
theorem stalledEdgeHoldsEveryStage : Obligations.StalledEdgeHoldsEveryStage := by
  intro s hrun hr hs
  refine ⟨_, step_of_running hrun, ?_, ?_, ?_, handshakes_of_stall hs⟩
  all_goals simp [blockEdge_of_stall hr hs]

/-- Settles O13: the edge is a reset edge, and `rst = 1` keeps the block from being ready. -/
theorem resetEdgeClearsValidBits : Obligations.ResetEdgeClearsValidBits := by
  intro s hrun hr
  obtain ⟨hready, haccepted, -⟩ := handshakes_of_rst hr
  refine ⟨_, step_of_running hrun, ?_, ?_, ?_, hready, haccepted⟩
  all_goals simp [blockEdge_of_rst hr]

/-- Settles O14: three bubbles hold no request and no response, so nothing can stall the next cycle. -/
theorem oneResetEdgeIsEnough : Obligations.OneResetEdgeIsEnough := by
  intro s t hr hst
  obtain ⟨-, -, htransferred⟩ := handshakes_of_rst hr
  obtain ⟨-, rfl⟩ := step_next hst
  have hvalid : (clockEdge s.ports.reqValid (stageA s.params s.ports.reqWord) s).rspValid = false := by
    simp [blockEdge_of_rst hr]
  exact ⟨by simp [blockEdge_of_rst hr], htransferred, hvalid, step_params hst, reqReady_of_no_response hvalid⟩

/-! ## What a step runs (R38, R71) -/

/-- Settles O9: by whether a request is on the port. -/
theorem stepRunsTheDecodedRequest : Obligations.StepRunsTheDecodedRequest := fun s hrun =>
  ⟨fun hv => by simp [step, hrun, hv], fun hv => by simp [step, hrun, hv]⟩

/-- The host with a request placed holds no other, and its line is a raw cycle: only a reserved status can stop the
step (log 2). -/
theorem withFetchWord_stopped {s : State} (h : ¬ (s.s3.v = true ∧ 5 ≤ s.s3.st.toNat)) (nbits w : Nat) :
    (s.withFetchWord nbits w).stopped = none :=
  (stopped_none_iff _).2 ⟨rfl, rfl, fun ⟨_, hv, hres⟩ => h ⟨hv, (reservedCode_iff _).1 hres⟩⟩

/-- The placed request's cycle drives `rst = 0` and `rsp_ready = 1`, so the block is ready (log 2). -/
theorem withFetchWord_reqReady (s : State) (nbits w : Nat) : (s.withFetchWord nbits w).reqReady = true := by
  simp [reqReady_iff, State.stall, offerCycle]

/-- Settles O10: the placed cycle offers the word, nothing stops the step, and the block is ready. -/
theorem placedRequestRunsNext : Obligations.PlacedRequestRunsNext := by
  intro s nbits w h
  constructor
  · exact (stepRunsTheDecodedRequest _ (withFetchWord_stopped h nbits w)).1 rfl
  · rw [State.accepted, withFetchWord_reqReady]
    rfl

/-! ## The ports, and the values after reset (R34 to R36, R40) -/

/-- Settles O15: the stages are bubbles, and P_CMD_VALID is R9's default list. -/
theorem resetStateValues : Obligations.ResetStateValues := by
  refine ⟨rfl, rfl, rfl, rfl, rfl, rfl, (faithfulAfterReset []).params, rfl, rfl, fun c => ?_⟩
  simp only [State.reset, Params.default, List.mem_cons, List.not_mem_nil, or_false]
  omega

/-- Settles O16: from the wires' definitions. -/
theorem stallAndReady : Obligations.StallAndReady := fun s =>
  ⟨stall_iff s, by rw [reqReady_iff, ← stall_iff, Bool.not_eq_true]⟩

/-- Settles O17: while S3 is valid the word is the packed response, whose two halves are its fields. -/
theorem responsePortsAreDrivenFromS3 : Obligations.ResponsePortsAreDrivenFromS3 := by
  refine ⟨fun _ => rfl, fun s hv => ?_, fun _ _ => ⟨rfl, rfl⟩⟩
  rw [State.rspWord, if_pos hv]
  exact ⟨BitVec.extractLsb'_append_eq_left, BitVec.extractLsb'_append_eq_right⟩

/-! ## What the fields of a valid entry hold (R28, R29, R31) -/

/-- What an S1 entry holds: an error and its data alone, or the fields of its own kind (R28, R31). -/
def S1.HoldsOwnFields (e : S1) : Prop :=
  (e.st ≠ 0#3 → e.dec = false ∧ e.pay = 0#11 ∧ e.tel = false ∧ e.inv = false ∧ e.sent = false ∧ e.raw = 0#12) ∧
  (e.st = 0#3 → e.err = 0#32 ∧
    (e.dec = false → e.sent = false ∧ e.raw = 0#12) ∧
    (e.dec = true → e.pay = 0#11 ∧ e.tel = false ∧ e.inv = false ∧ (e.sent = true ↔ e.raw = 0xFFF#12)))

/-- What an S2 entry with status 0 holds: an encode's checksum, or a decode's period (R29). -/
def S2.HoldsOwnFields (e : S2) : Prop :=
  e.st = 0#3 →
    (e.dec = false → e.sent = false ∧ e.period = 0#16 ∧ ∃ inv, e.csum = checksum e.pay e.tel inv) ∧
    (e.dec = true → e.csum = 0#4 ∧ e.pay = 0#11 ∧
      (e.sent = true → e.period = 0#16) ∧
      (e.sent = false → 1 ≤ e.period.toNat ∧ e.period.toNat ≤ 65280))

/-- Only OK is numbered 0 (R79). -/
theorem Status.code_ne_zero {st : Status} (h : st ≠ .ok) : st.code ≠ 0#3 := by
  cases st with
  | ok => exact absurd rfl h
  | _ => decide

/-- The largest period is that of the reading just below the sentinel, 510 under the exponent 7 (R161). -/
theorem periodOf_le {raw : Raw} (h : raw ≠ Config.erpmNoData) : (periodOf raw).toNat ≤ 65280 := by
  have hlt := raw.isLt
  have hne : raw.toNat ≠ 0x0FFF := fun he => h ((eq_erpmNoData_iff raw).2 he)
  rw [periodOf_toNat]
  by_cases he : raw.toNat / 512 = 7
  · rw [he]
    omega
  · calc raw.toNat % 512 * 2 ^ (raw.toNat / 512)
      _ ≤ 511 * 2 ^ 6 := Nat.mul_le_mul (by omega) (Nat.pow_le_pow_right (by decide) (by omega))
      _ ≤ 65280 := by decide

/-- Part A fills the fields of one kind of entry and leaves the others 0 (R31). -/
theorem partA_holdsOwnFields (p : Params) (i : Instr) : (partA p i).HoldsOwnFields := by
  rcases partA_cases p i with ⟨pay, tel, inv, h⟩ | ⟨raw, h⟩ | ⟨st, d, hst, h⟩ <;> rw [h]
  · exact ⟨fun hs => absurd rfl hs, fun _ => ⟨rfl, fun _ => ⟨rfl, rfl⟩, nofun⟩⟩
  · exact ⟨fun hs => absurd rfl hs, fun _ => ⟨rfl, nofun, fun _ => ⟨rfl, rfl, rfl, beq_iff_eq⟩⟩⟩
  · exact ⟨fun _ => ⟨rfl, rfl, rfl, rfl, rfl, rfl⟩, fun hs => absurd hs (Status.code_ne_zero hst)⟩

/-- Part B of a reading that is not the sentinel leaves a period in range, or an error (R160, R161). -/
theorem stageB_reading_holdsOwnFields {raw : Raw} (h : raw ≠ Config.erpmNoData) :
    (stageB (S1.reading raw false)).HoldsOwnFields := by
  rw [stageB_of_reading rfl rfl rfl, S1.reading_raw]
  rcases periodPart_cases raw (S2.copy (S1.reading raw false)) with ⟨-, hp⟩ | ⟨hz, hp⟩ <;> rw [hp]
  · exact fun hs => absurd hs (Status.code_ne_zero (st := .malformedTelemetry) (by decide))
  · have hpos : (periodOf raw).toNat ≠ 0 := fun he => hz (BitVec.eq_of_toNat_eq he)
    exact fun _ => ⟨nofun, fun _ => ⟨rfl, rfl, nofun, fun _ => ⟨Nat.pos_of_ne_zero hpos, periodOf_le h⟩⟩⟩

/-- Stage B adds a checksum to an encode and a period to a reading, and copies an error (R32). -/
theorem stageB_partA_holdsOwnFields (p : Params) (i : Instr) : (stageB (partA p i)).HoldsOwnFields := by
  rcases partA_cases p i with ⟨pay, tel, inv, h⟩ | ⟨raw, h⟩ | ⟨st, d, hst, h⟩ <;> rw [h]
  · rw [stageB_of_encode rfl rfl]
    exact fun _ => ⟨fun _ => ⟨rfl, rfl, inv, rfl⟩, nofun⟩
  · by_cases hn : raw = Config.erpmNoData
    · rw [beq_iff_eq.2 hn, stageB_of_sentinel rfl rfl rfl]
      exact fun _ => ⟨nofun, fun _ => ⟨rfl, rfl, fun _ => rfl, nofun⟩⟩
    · rw [beq_eq_false_iff_ne.2 hn]
      exact stageB_reading_holdsOwnFields hn
  · rw [stageB_of_error (Status.code_ne_zero hst)]
    exact fun hs => absurd hs (Status.code_ne_zero hst)

/-- Settles O43: a valid entry of a faithful pipeline is what the stages make of a request word, of one of three kinds. -/
theorem entriesHoldOnlyTheirOwnFields : Obligations.EntriesHoldOnlyTheirOwnFields := by
  intro s h
  constructor
  · intro hv
    obtain ⟨w, hw⟩ := h.s1 hv
    rw [hw]
    exact partA_holdsOwnFields s.params (decode w)
  · intro hv
    obtain ⟨w, hw⟩ := h.s2 hv
    rw [hw]
    exact stageB_partA_holdsOwnFields s.params (decode w)

/-! ## What bubbles hold cannot be seen (R37, R40) -/

/-- What the host's lines drive depends on the free values' counter in `req_word` alone, while no request is offered. -/
theorem drivenPorts_same (d e : Nat) (x : List HostLine × Bool) : PortsIn.same (drivenPorts d x) (drivenPorts e x) := by
  obtain ⟨ls, b⟩ := x
  cases ls with
  | nil => exact ⟨rfl, rfl, rfl, nofun⟩
  | cons l rest =>
    cases l with
    | request w => exact ⟨rfl, rfl, rfl, fun _ => rfl⟩
    | cycle p => exact ⟨rfl, rfl, rfl, fun _ => rfl⟩
    | idle n => exact ⟨rfl, rfl, rfl, nofun⟩
    | reset n => exact ⟨rfl, rfl, rfl, nofun⟩
    | rspReady c => exact ⟨rfl, rfl, rfl, nofun⟩

section
variable {s t : State}

theorem State.Same.ports (h : s.Same t) : PortsIn.same s.ports t.ports := by
  rw [State.ports, State.ports, h.host]
  exact drivenPorts_same _ _ _

theorem State.Same.stall (h : s.Same t) : s.stall = t.stall := by
  obtain ⟨-, -, hrsp, -⟩ := h.ports
  rw [State.stall, State.stall, h.s3.1, hrsp]

theorem State.Same.reqReady (h : s.Same t) : s.reqReady = t.reqReady := by
  obtain ⟨hrst, -, -, -⟩ := h.ports
  rw [State.reqReady, State.reqReady, hrst, h.stall]

theorem State.Same.rspWord (h : s.Same t) (hv : s.rspValid = true) : s.rspWord = t.rspWord := by
  have hv' : s.s3.v = true := hv
  rw [State.rspWord, State.rspWord, ← h.s3.2 hv, if_pos hv', if_pos hv']

/-- The request port shows a word only where it is offered. -/
theorem State.Same.ite_reqWord (h : s.Same t) (b : Bool) :
    (if s.ports.reqValid && b then some s.ports.reqWord else none) =
      if t.ports.reqValid && b then some t.ports.reqWord else none := by
  obtain ⟨-, hvalid, -, hword⟩ := h.ports
  rw [← hvalid]
  cases hv : s.ports.reqValid
  · rfl
  · rw [hword hv]

theorem State.Same.accepted (h : s.Same t) : s.accepted = t.accepted := by
  rw [State.accepted, State.accepted, ← h.reqReady]
  exact h.ite_reqWord _

theorem State.Same.transferred (h : s.Same t) : s.transferred = t.transferred := by
  obtain ⟨hrst, -, hrsp, -⟩ := h.ports
  rw [State.transferred, State.transferred, ← h.s3.1, hrst, hrsp]
  cases hv : s.s3.v
  · rfl
  · rw [h.s3.2 hv]

theorem State.Same.hostKeepsRequest (h : s.Same t) : s.hostKeepsRequest = t.hostKeepsRequest := by
  obtain ⟨-, hvalid, -, hword⟩ := h.ports
  rw [State.hostKeepsRequest, State.hostKeepsRequest, ← h.host, ← hvalid]
  cases hv : s.ports.reqValid
  · rfl
  · rw [hword hv]

theorem State.Same.stopped (h : s.Same t) : s.stopped = t.stopped := by
  obtain ⟨hrst, -, -, -⟩ := h.ports
  have hreserved : (s.s3.v && reservedCode s.s3.st) = (t.s3.v && reservedCode t.s3.st) := by
    rw [← h.s3.1]
    cases hv : s.s3.v
    · rfl
    · rw [h.s3.2 hv]
  rw [State.stopped, State.stopped, h.hostKeepsRequest, State.lineFits, State.lineFits, h.host, hrst,
    Bool.and_assoc, hreserved, Bool.and_assoc]

theorem State.Same.hostAfter (h : s.Same t) (accepted : Bool) : s.hostAfter accepted = t.hostAfter accepted := by
  rw [State.hostAfter, State.hostAfter, h.host, h.ite_reqWord]

/-- A reset edge leaves three bubbles (R37). -/
theorem State.Same.resetEdge (h : s.Same t) : s.resetEdge.Same t.resetEdge :=
  ⟨⟨rfl, nofun⟩, ⟨rfl, nofun⟩, ⟨rfl, nofun⟩, h.params, h.host⟩

/-- An advancing edge makes bubbles of bubbles and equal entries of equal ones (R38). -/
theorem State.Same.advance (h : s.Same t) {valid : Bool} {a b : S1} (hab : valid = true → a = b) :
    (s.advance valid a).Same (t.advance valid b) where
  s1 := ⟨rfl, fun hv => by rw [advance_s1, advance_s1, hab hv]⟩
  s2 := ⟨h.s1.1, fun hv => by rw [advance_s2, advance_s2, h.s1.2 hv]⟩
  s3 := ⟨h.s2.1, fun hv => by rw [advance_s3, advance_s3, h.s2.2 hv]⟩
  params := h.params
  host := h.host

theorem State.Same.blockEdge (h : s.Same t) {valid : Bool} {a b : S1} (hab : valid = true → a = b) :
    (s.blockEdge valid a).Same (t.blockEdge valid b) := by
  obtain ⟨hrst, -, -, -⟩ := h.ports
  rw [State.blockEdge, State.blockEdge, ← hrst, ← h.stall]
  split
  · exact h.resetEdge
  · split
    · exact h
    · exact h.advance hab

theorem State.Same.clockEdge (h : s.Same t) :
    (clockEdge s.ports.reqValid (stageA s.params s.ports.reqWord) s).Same
      (clockEdge t.ports.reqValid (stageA t.params t.ports.reqWord) t) := by
  obtain ⟨-, hvalid, -, hword⟩ := h.ports
  have hedge : (s.blockEdge s.ports.reqValid (stageA s.params s.ports.reqWord)).Same
      (t.blockEdge t.ports.reqValid (stageA t.params t.ports.reqWord)) := by
    rw [← hvalid]
    exact h.blockEdge fun hv => by rw [h.params, hword hv]
  exact { hedge with host := by rw [clockEdge_host, clockEdge_host, hvalid, h.reqReady, h.hostAfter] }

theorem State.Same.step (h : s.Same t) : SameOutcome (step s) (step t) := by
  cases hs : s.stopped with
  | none =>
    rw [step_of_running hs, step_of_running (h.stopped ▸ hs)]
    exact h.clockEdge
  | some stop =>
    have ht : t.stopped = some stop := h.stopped ▸ hs
    cases stop <;> simp [Machine.step, hs, ht, SameOutcome]

end

/-- Settles O39: the ports, the handshakes, what stops a step and each kind of edge agree on two such states. -/
theorem bubblesCannotBeSeen : Obligations.BubblesCannotBeSeen := fun _ _ h =>
  ⟨h.ports, h.reqReady, h.s3.1, h.rspWord, h.accepted, h.transferred, h.step⟩

/-! ## The pipeline's invariant (R27, R31 to R33) -/

/-- Settles O41: a reset edge leaves bubbles, a stalled edge leaves the state, and an advancing edge applies each stage's
function to a faithful entry. -/
theorem stepKeepsFaithful : Obligations.StepKeepsFaithful := fun _ _ h hst => h.of_step hst

end Sys2Proof.Machine

/-! The handshakes (R53, R54), the bound on the requests in flight (R61), and the in-order queue of a step and of a run
(R56 to R58, R60). -/

namespace Sys2Proof.Machine

/-! ## Handshakes (R53, R54) -/

/-- A request is accepted exactly when both sides of its handshake are 1, and it is the word on the port (R53). -/
theorem accepted_eq_some_iff (s : State) (w : ReqWord) :
    s.accepted = some w ↔ s.ports.reqValid = true ∧ s.reqReady = true ∧ s.ports.reqWord = w := by
  simp [State.accepted, and_assoc]

/-- A response is transferred exactly when both sides of its handshake are 1 with no reset, and it is S3's (R54). -/
theorem transferred_eq_some_iff (s : State) (r : Response) :
    s.transferred = some r ↔
      s.rspValid = true ∧ s.ports.rspReady = true ∧ s.ports.rst = false ∧ s.s3.response = r := by
  simp [State.transferred, State.rspValid, and_assoc]

/-- Settles O19: each handshake's own condition. -/
theorem handshakes : Obligations.Handshakes := fun s => ⟨accepted_eq_some_iff s, transferred_eq_some_iff s⟩

/-! ## At most three requests in flight (R61) -/

/-- One request is in flight per valid stage (R27, R61). -/
theorem inFlight_length (s : State) : s.inFlight.length = s.s3.v.toNat + s.s2.v.toNat + s.s1.v.toNat := by
  simp only [State.inFlight, List.length_append, apply_ite List.length, List.length_singleton, List.length_nil,
    Bool.toNat, Bool.cond_eq_ite]

theorem inFlight_length_le (s : State) : s.inFlight.length ≤ 3 := by
  have h1 := s.s1.v.toNat_le
  have h2 := s.s2.v.toNat_le
  have h3 := s.s3.v.toNat_le
  rw [inFlight_length]
  omega

/-- With three requests in flight S3 holds one of them, since S1 and S2 hold at most two (R61). -/
theorem s3_valid_of_three_inFlight {s : State} (h : s.inFlight.length = 3) : s.s3.v = true := by
  have h1 := s.s1.v.toNat_le
  have h2 := s.s2.v.toNat_le
  have h3 := s.s3.v.toNat_le
  rw [inFlight_length] at h
  exact Bool.toNat_eq_one.1 (by omega)

/-- A stalled block is not ready (R35). -/
theorem reqReady_of_stall {s : State} (h : s.stall = true) : s.reqReady = false := by
  simp [State.reqReady, h]

/-- Settles O20: a stage holds at most one request, and three in flight need S3, whose untaken response stalls. -/
theorem atMostThreeInFlight : Obligations.AtMostThreeInFlight := by
  refine fun s => ⟨inFlight_length_le s, fun hthree hrsp => ?_⟩
  have hstall := (stall_iff s).2 ⟨s3_valid_of_three_inFlight hthree, hrsp⟩
  exact ⟨hstall, reqReady_of_stall hstall, (handshakes_of_stall hstall).1⟩

/-! ## The in-order queue (R56 to R58, R60) -/

/-- Settles O36: a reset edge drops every request with no handshake, and any other edge moves the queue. -/
theorem stepIsAnInOrderQueue : Obligations.StepIsAnInOrderQueue := by
  refine fun s t hst => ⟨fun hr => ?_, step_queue hst⟩
  obtain ⟨hempty, -⟩ := oneResetEdgeIsEnough s t hr hst
  obtain ⟨-, hhandshakes⟩ := handshakes_of_rst hr
  exact ⟨hempty, hhandshakes⟩

/-- Settles O37: by induction on the run's length, each step being one move of the queue. -/
theorem oneResponsePerRequestInOrder : Obligations.OneResponsePerRequestInOrder := fun _ _ _ => observe_queue

/-- A run with no reset that starts with nothing in flight transfers what `Op` makes of the words it accepts, as far as
it has got (R56, R57). -/
theorem observe_responses_prefix {k : Nat} {s : State} {o : Observed} (h : observe k s = some o)
    (hr : o.sawReset = false) (hempty : s.inFlight = []) :
    o.responses <+: o.accepted.map (opResponse s.params) := by
  have hqueue := observe_queue h hr
  rw [hempty, List.nil_append] at hqueue
  exact ⟨o.final.inFlight, hqueue⟩

/-- Settles O38: both runs' responses are prefixes of one list, which the words and the parameters fix. -/
theorem responsesDependOnWordsAlone : Obligations.ResponsesDependOnWordsAlone := by
  intro k l s u o q hparams hs hu ho hq hro hrq hwords
  have hprefix := observe_responses_prefix ho hro hs
  rw [hparams, hwords] at hprefix
  exact List.prefix_or_prefix_of_prefix hprefix (observe_responses_prefix hq hrq hu)

end Sys2Proof.Machine

/-! The decoder by its op bits (R71, R83), and the encoder as its inverse on the bits a rule reads (R75, R84). -/

namespace Sys2Proof

/-! ## A request word and its fields (R70) -/

/-- A request word is its op, polarity, telemetry bit and value field. -/
theorem reqPack_fields (w : ReqWord) : reqPack (reqOp w) (reqInv w) (reqTelem w) (reqValue w) = w := by
  apply BitVec.eq_of_getLsbD_eq
  intro k hk
  rw [reqPack_getLsbD]
  split
  · next h => simp [reqValue, h]
  · split
    · next h => rw [h, reqTelem]
    · split
      · next h => rw [h, reqInv]
      · simp [reqOp, show k - 18 < 3 by omega, show 18 + (k - 18) = k by omega]

/-- A request word is its op bits over the rest (R204). -/
theorem reqOp_append_reqRest (w : ReqWord) : reqOp w ++ reqRest w = w := by
  apply BitVec.eq_of_getLsbD_eq
  intro k hk
  rw [BitVec.getLsbD_append, reqOp, reqRest, BitVec.getLsbD_extractLsb', BitVec.getLsbD_extractLsb']
  split
  · next h => simp [h]
  · simp [show k - 18 < 3 by omega, show 18 + (k - 18) = k by omega]

/-- The op field by its three bits. -/
theorem reqOp_eq_bits (w : ReqWord) : reqOp w =
    BitVec.ofBool (w.getLsbD 20) ++ BitVec.ofBool (w.getLsbD 19) ++ BitVec.ofBool (w.getLsbD 18) := by
  apply BitVec.eq_of_getLsbD_eq
  intro k hk
  simp only [reqOp, BitVec.getLsbD_extractLsb', BitVec.getLsbD_append, BitVec.getLsbD_ofBool]
  interval_cases k <;> simp

/-- A bitwise `and` of packed words acts on each field. -/
theorem reqPack_and (op op' : BitVec 3) (inv inv' telem telem' : Bool) (value value' : Operand) :
    reqPack op inv telem value &&& reqPack op' inv' telem' value' =
      reqPack (op &&& op') (inv && inv') (telem && telem') (value &&& value') := by
  apply BitVec.eq_of_getLsbD_eq
  intro k _
  simp only [BitVec.getLsbD_and, reqPack_getLsbD]
  split_ifs <;> rfl

/-- A packed mask that keeps the op keeps or clears each other field by itself. -/
theorem and_reqPack (w : ReqWord) (inv telem : Bool) (value : Operand) :
    w &&& reqPack 7#3 inv telem value =
      reqPack (reqOp w) (reqInv w && inv) (reqTelem w && telem) (reqValue w &&& value) := by
  conv_lhs => rw [← reqPack_fields w]
  rw [reqPack_and, show 7#3 = BitVec.allOnes 3 from rfl, BitVec.and_allOnes]

theorem reqOp_and (w w' : ReqWord) : reqOp (w &&& w') = reqOp w &&& reqOp w' := BitVec.extractLsb'_and

/-! ## The decoder (R71, R83) -/

/-- The operation of a word, by its op: what the decoder reads of each row (R71). -/
theorem decode_cases (w : ReqWord) :
    (reqOp w = 0#3 ∧ decode w = .encThr (reqValue w) (reqTelem w) (reqInv w)) ∨
    (reqOp w = 1#3 ∧ decode w = .encThrClamp (reqValue w) (reqTelem w) (reqInv w)) ∨
    (reqOp w = 2#3 ∧ decode w = .encThrMin (reqTelem w) (reqInv w)) ∨
    (reqOp w = 3#3 ∧ decode w = .encCmd (reqValue w) (reqInv w)) ∨
    (reqOp w = 4#3 ∧ decode w = .encRev (w.getLsbD 0) (reqInv w)) ∨
    (reqOp w = 5#3 ∧ decode w = .decErpm (reqValue w)) ∨
    (reqOp w = 6#3 ∧ decode w = .illegalOp6 (reqRest w)) ∨
    (reqOp w = 7#3 ∧ decode w = .illegalOp7 (reqRest w)) := by
  rw [reqOp_eq_bits, decode]
  cases w.getLsbD 20 <;> cases w.getLsbD 19 <;> cases w.getLsbD 18 <;> simp

/-- The decoder reads the op bits as the op number (R83). -/
theorem decode_op (w : ReqWord) : (decode w).op = reqOp w := by
  rcases decode_cases w with ⟨ho, h⟩ | ⟨ho, h⟩ | ⟨ho, h⟩ | ⟨ho, h⟩ | ⟨ho, h⟩ | ⟨ho, h⟩ | ⟨ho, h⟩ | ⟨ho, h⟩ <;>
    (rw [h, ho]; rfl)

/-- Op 6 over 18 bits of rest decodes to those bits (R204). -/
theorem decode_append_op6 (w : BitVec 18) : decode (0b110#3 ++ w) = .illegalOp6 w := by
  simpa [Laws.OpField.reqOp_append, reqRest_append] using decode_cases (0b110#3 ++ w)

/-- Op 7 over 18 bits of rest decodes to those bits (R204). -/
theorem decode_append_op7 (w : BitVec 18) : decode (0b111#3 ++ w) = .illegalOp7 w := by
  simpa [Laws.OpField.reqOp_append, reqRest_append] using decode_cases (0b111#3 ++ w)

/-- Settles O3: by the kind of operation, the decoder finds each operand in the field the encoder put it in. -/
theorem decodeAfterEncode : Obligations.DecodeAfterEncode := by
  intro i
  cases i with
  | encThr value telem inv => exact decode_reqPack _ _ _ _
  | encThrClamp value telem inv => exact decode_reqPack _ _ _ _
  | encThrMin telem inv => exact decode_reqPack _ _ _ _
  | encCmd code inv => exact decode_reqPack _ _ _ _
  | encRev reverse inv => exact (decode_reqPack _ _ _ _).trans (by cases reverse <;> rfl)
  | decErpm value => exact decode_reqPack _ _ _ _
  | illegalOp6 w => exact decode_append_op6 w
  | illegalOp7 w => exact decode_append_op7 w

/-- The op bits alone, left in place, are the op number shifted (R83). -/
theorem and_opMask (w : ReqWord) : w &&& 0x1C0000#21 = (reqOp w).setWidth 21 <<< 18 := by
  have hshift : ∀ op : BitVec 3, reqPack op false false 0#16 = op.setWidth 21 <<< 18 := by decide
  rw [show 0x1C0000#21 = reqPack 7#3 false false 0#16 from rfl, and_reqPack, Bool.and_false, Bool.and_false,
    BitVec.and_zero, hshift]

/-- Settles O1: the decoder's op is the op field. -/
theorem decoderReadsOpBitsAlone : Obligations.DecoderReadsOpBitsAlone := by
  intro w
  refine ⟨decode_op w, ?_, fun w' hw => ?_⟩
  · rw [decode_op, and_opMask]
  · rw [decode_op, decode_op]
    exact hw

/-! ## The bits a rule reads (R75) -/

/-- Every rule reads the op bits. -/
theorem reqOp_readMask (i : Instr) : reqOp i.readMask = BitVec.allOnes 3 := by
  cases i <;> simp [reqOp, Instr.readMask]

/-- Which bits are read depends on the op alone (R75). -/
theorem readMask_congr {i j : Instr} (h : i.op = j.op) : i.readMask = j.readMask := by
  have hrow : ∀ k : Instr, k.readMask = (decode (k.op ++ 0#18)).readMask := by
    intro k
    cases k <;> simp [decode, Instr.op, Instr.readMask]
  rw [hrow i, h, ← hrow j]

/-- What the decoder reads of a word, encoded again, is the word without its ignored bits (R75, R84). -/
theorem encode_decode (w : ReqWord) : encode (decode w) = w &&& (decode w).readMask := by
  have hbit : (reqValue w).getLsbD 0 = w.getLsbD 0 := by simp [reqValue]
  rcases decode_cases w with ⟨ho, h⟩ | ⟨ho, h⟩ | ⟨ho, h⟩ | ⟨ho, h⟩ | ⟨ho, h⟩ | ⟨ho, h⟩ | ⟨ho, h⟩ | ⟨ho, h⟩ <;>
    rw [h, encode, Instr.readMask]
  · rw [show 0x1FFFFF#21 = BitVec.allOnes 21 from rfl, BitVec.and_allOnes, ← ho, reqPack_fields]
  · rw [show 0x1FFFFF#21 = BitVec.allOnes 21 from rfl, BitVec.and_allOnes, ← ho, reqPack_fields]
  · rw [show 0x1F0000#21 = reqPack 7#3 true true 0#16 from rfl, and_reqPack, ho]
    simp
  · rw [show 0x1EFFFF#21 = reqPack 7#3 true false (BitVec.allOnes 16) from rfl, and_reqPack, ho,
      BitVec.and_allOnes]
    simp
  · rw [show 0x1E0001#21 = reqPack 7#3 true false 1#16 from rfl, and_reqPack, ho,
      BitVec.and_one_eq_setWidth_ofBool_getLsbD, hbit]
    simp
  · rw [show 0x1CFFFF#21 = reqPack 7#3 false false (BitVec.allOnes 16) from rfl, and_reqPack, ho,
      BitVec.and_allOnes]
    simp
  · rw [show 0x1FFFFF#21 = BitVec.allOnes 21 from rfl, BitVec.and_allOnes, ← ho, reqOp_append_reqRest]
  · rw [show 0x1FFFFF#21 = BitVec.allOnes 21 from rfl, BitVec.and_allOnes, ← ho, reqOp_append_reqRest]

/-- Settles O4: row by row, the encoder's fields are the word's fields under the row's mask. -/
theorem encodeAfterDecode : Obligations.EncodeAfterDecode := encode_decode

/-- In a row with no ignored bit the word is its operation's encoding (R75). -/
theorem encode_of_decode {w : ReqWord} {i : Instr} (h : decode w = i) (hmask : i.readMask = BitVec.allOnes 21) :
    encode i = w := by
  rw [← h, encode_decode, h, hmask, BitVec.and_allOnes]

/-- Words that agree on the bits read have one op, so one mask, and decode alike (R75). -/
theorem decode_congr {w w' : ReqWord} (h : w &&& (decode w).readMask = w' &&& (decode w).readMask) :
    decode w' = decode w := by
  have hop : reqOp w = reqOp w' := by
    have hfield := congrArg reqOp h
    rwa [reqOp_and, reqOp_and, reqOp_readMask, BitVec.and_allOnes, BitVec.and_allOnes] at hfield
  have hmask : (decode w').readMask = (decode w).readMask := readMask_congr (by rw [decode_op, decode_op, hop])
  calc decode w'
    _ = decode (encode (decode w')) := (decodeAfterEncode _).symm
    _ = decode (encode (decode w)) := by rw [encode_decode, encode_decode, hmask, h]
    _ = decode w := decodeAfterEncode _

/-- An encoder writes 0 in every ignored bit (R75, R84). -/
theorem encode_ignored_zero (i : Instr) : encode i &&& ~~~ i.readMask = 0#21 := by
  cases i with
  | encThr value telem inv => exact Laws.IgnoredZero.encThr value telem inv
  | encThrClamp value telem inv => exact Laws.IgnoredZero.encThrClamp value telem inv
  | encThrMin telem inv => exact Laws.IgnoredZero.encThrMin telem inv
  | encCmd code inv => exact Laws.IgnoredZero.encCmd code inv
  | encRev reverse inv => exact Laws.IgnoredZero.encRev reverse inv
  | decErpm value => exact Laws.IgnoredZero.decErpm value
  | illegalOp6 w => exact Laws.IgnoredZero.illegalOp6 w
  | illegalOp7 w => exact Laws.IgnoredZero.illegalOp7 w

/-- Settles O5: the stages and the response read a word through its decoding alone. -/
theorem ignoredBitsHaveNoEffect : Obligations.IgnoredBitsHaveNoEffect := by
  refine ⟨fun p w w' h => ?_, encode_ignored_zero⟩
  have hdec := decode_congr h
  have hentry : Machine.stageA p w' = Machine.stageA p w := congrArg (Machine.partA p) hdec
  exact ⟨hdec, hentry, congrArg Machine.S1.finish hentry⟩

/-- Settles O6: the bound on the number is the decoder's own test. -/
theorem wideNumbersAreRefused : Obligations.WideNumbersAreRefused :=
  fun _ => ⟨fun h => if_pos h, fun h => if_neg (Nat.not_lt.2 h)⟩

end Sys2Proof

/-! The assembler's word of each request line (R84, R86), and the disassembler's line of each word (R85). -/

namespace Sys2Proof.Machine

/-! ## Operands that fit their fields (R84) -/

@[simp] theorem fitsValue_iff (n : Nat) : fitsValue n = true ↔ n < 65536 := decide_eq_true_iff
@[simp] theorem fitsReq_iff (n : Nat) : fitsReq n = true ↔ n < 2 ^ 21 := decide_eq_true_iff
@[simp] theorem fitsBit_iff (n : Nat) : fitsBit n = true ↔ n ≤ 1 := decide_eq_true_iff.trans Nat.lt_succ_iff

/-- A `0` or `1` operand is the number of its bit. -/
theorem toBit_toNat {n : Nat} (h : n ≤ 1) : (toBit n).toNat = n := by
  interval_cases n <;> rfl

/-- The value field of an ENC_REV line holds the reverse operand alone (R141). -/
theorem setWidth_toBit {n : Nat} (h : n ≤ 1) : (BitVec.ofBool (toBit n)).setWidth 16 = BitVec.ofNat 16 n := by
  interval_cases n <;> rfl

@[simp] theorem toBit_boolToNat (b : Bool) : toBit b.toNat = b := by
  cases b <;> rfl

/-! ## The assembler (R84) -/

/-- A request line, by the condition that its operands fit and the word it stands for. -/
theorem assemble_request {l : Source} {fit : Prop} [Decidable fit] {w : ReqWord} (hfits : l.fits = true ↔ fit)
    (hline : fit → l.expand.line = .request w) : assemble l = if fit then some (.request w) else none := by
  by_cases h : fit
  · rw [assemble, if_pos (hfits.2 h), if_pos h, hline h]
  · rw [assemble, if_neg (h ∘ hfits.1), if_neg h]

/-- The packed word of operands that fit their fields, as a number (R70). -/
theorem reqPack_operands (op : BitVec 3) {value telem inv : Nat} (hv : value < 65536) (ht : telem ≤ 1) (hi : inv ≤ 1) :
    reqPack op (toBit inv) (toBit telem) (BitVec.ofNat 16 value) =
      BitVec.ofNat 21 (op.toNat * 2 ^ 18 + inv * 2 ^ 17 + telem * 2 ^ 16 + value) := by
  rw [reqPack_eq_ofNat, toBit_toNat hi, toBit_toNat ht, BitVec.toNat_ofNat, Nat.mod_eq_of_lt hv]

/-- Settles O7: each form's word is its packed fields as a number, and its operands are tested one by one. -/
theorem assemblerEncodesEachLine : Obligations.AssemblerEncodesEachLine := by
  refine ⟨fun value telem inv => ?_, fun value telem inv => ?_, fun telem inv => ?_, fun code inv => ?_,
    fun reverse inv => ?_, fun raw => ?_, fun word => ?_, fun inv => ?_, fun inv => ?_⟩
  · refine assemble_request (by simp [Source.fits, and_assoc]) fun ⟨hv, ht, hi⟩ => ?_
    have hword := reqPack_operands 0#3 hv ht hi
    rw [show (0#3).toNat = 0 from rfl, Nat.zero_mul, Nat.zero_add] at hword
    exact congrArg HostLine.request hword
  · refine assemble_request (by simp [Source.fits, and_assoc]) fun ⟨hv, ht, hi⟩ => ?_
    exact congrArg HostLine.request (reqPack_operands 1#3 hv ht hi)
  · refine assemble_request (by simp [Source.fits]) fun ⟨ht, hi⟩ => ?_
    exact congrArg HostLine.request (reqPack_operands 2#3 (value := 0) (by decide) ht hi)
  · refine assemble_request (by simp [Source.fits]) fun ⟨hv, hi⟩ => ?_
    exact congrArg HostLine.request (reqPack_operands 3#3 (telem := 0) hv (by decide) hi)
  · refine assemble_request (by simp [Source.fits]) fun ⟨hr, hi⟩ => ?_
    have hword := reqPack_operands 4#3 (telem := 0) (Nat.lt_of_le_of_lt hr (by decide)) (by decide) hi
    rw [← setWidth_toBit hr] at hword
    exact congrArg HostLine.request hword
  · refine assemble_request (by simp [Source.fits]) fun hv => ?_
    exact congrArg HostLine.request (reqPack_operands 5#3 (telem := 0) (inv := 0) hv (by decide) (by decide))
  · exact assemble_request (by simp [Source.fits]) fun _ => rfl
  · simp [assemble, Source.fits, Source.expand]
  · simp [assemble, Source.fits, Source.expand]

/-! ## The disassembler (R85) -/

/-- The source line of an operation: R84's form of its row, or `.req` for op 6 and 7. -/
def sourceOf : Instr → Source
  | .encThr value telem inv => .encThr value.toNat telem.toNat inv.toNat
  | .encThrClamp value telem inv => .encThrClamp value.toNat telem.toNat inv.toNat
  | .encThrMin telem inv => .encThrMin telem.toNat inv.toNat
  | .encCmd code inv => .encCmd code.toNat inv.toNat
  | .encRev reverse inv => .encRev reverse.toNat inv.toNat
  | .decErpm value => .decErpm value.toNat
  | .illegalOp6 w => .req (encode (.illegalOp6 w)).toNat
  | .illegalOp7 w => .req (encode (.illegalOp7 w)).toNat

/-- A `.req` line of a word assembles to the word. -/
theorem assemble_req (w : ReqWord) : assemble (.req w.toNat) = some (.request w) := by
  simp [assemble, Source.fits, Source.expand, Source.line, w.isLt]

/-- The source line of an operation assembles to its word (R84). -/
theorem assemble_sourceOf (i : Instr) : assemble (sourceOf i) = some (.request (encode i)) := by
  have hvalue (v : Operand) : v.toNat < 65536 := v.isLt
  cases i with
  | illegalOp6 w => exact assemble_req _
  | illegalOp7 w => exact assemble_req _
  | _ => simp [sourceOf, assemble, Source.fits, Source.expand, Source.line, hvalue, Bool.toNat_le]

/-- The disassembler prints a word's operation when that has the word as its encoding, and else the word (R85). -/
theorem disassemble_eq (w : ReqWord) :
    disassemble w = if encode (decode w) = w then sourceOf (decode w) else .req w.toNat := by
  unfold disassemble
  cases h : decode w with
  | encThr value telem inv => rw [if_pos (encode_of_decode h rfl), sourceOf]
  | encThrClamp value telem inv => rw [if_pos (encode_of_decode h rfl), sourceOf]
  | encThrMin telem inv => rfl
  | encCmd code inv => rfl
  | encRev reverse inv => rfl
  | decErpm value => rfl
  | illegalOp6 w' => rw [sourceOf, encode_of_decode h rfl, ite_self]
  | illegalOp7 w' => rw [sourceOf, encode_of_decode h rfl, ite_self]

/-- A word is its operation's encoding exactly when each ignored bit is 0 (R75). -/
theorem encode_decode_eq_self_iff (w : ReqWord) : encode (decode w) = w ↔ w &&& ~~~ (decode w).readMask = 0#21 := by
  constructor
  · intro h
    have hzero := encode_ignored_zero (decode w)
    rwa [h] at hzero
  · intro h
    rw [encode_decode]
    apply BitVec.eq_of_getLsbD_eq
    intro k hk
    simpa [hk] using congrArg (·.getLsbD k) h

/-- Only op 6 and 7 have a `.req` line as their form. -/
theorem sourceOf_eq_req_iff (i : Instr) : (∃ n, sourceOf i = .req n) ↔ 6 ≤ i.op.toNat := by
  cases i <;> simp [sourceOf, Instr.op]

/-- Settles O8: both the operation's line and the `.req` line assemble to the word. -/
theorem disassemblerRoundTrip : Obligations.DisassemblerRoundTrip := by
  intro w
  rw [disassemble_eq, ← decode_op, ne_eq, ← encode_decode_eq_self_iff]
  by_cases h : encode (decode w) = w
  · rw [if_pos h, assemble_sourceOf, h]
    simp [sourceOf_eq_req_iff]
  · rw [if_neg h]
    exact ⟨assemble_req w, by simp [h]⟩

/-- Settles O2: by evaluation of the nine lines and words. -/
theorem encodingExamples : Obligations.EncodingExamples := by
  unfold Obligations.EncodingExamples
  decide

end Sys2Proof.Machine

/-! What stops a step and what does not (R81, R86, R233), the response of each status (R79, R80, R201 to R204), and the
ports that each line of a program drives (R86). -/

namespace Sys2Proof.Machine

/-! ## Stops (R81, R86, R233) -/

/-- With the host's duties kept, only an offered reserved status can stop a step (U8). -/
theorem stopped_of_host_kept {s : State} (hkeep : s.hostKeepsRequest = true) (hline : s.lineFits = true) :
    s.stopped = if !s.ports.rst && s.s3.v && reservedCode s.s3.st then some (.fault .reservedStatus) else none := by
  simp [State.stopped, hkeep, hline]

/-- A step is not refused while the host keeps its duties (R86, R233). -/
theorem step_ne_refused {s : State} (hkeep : s.hostKeepsRequest = true) (hline : s.lineFits = true) (r : Refusal) :
    step s ≠ .refused r := by
  have hstop := stopped_of_host_kept hkeep hline
  split at hstop
  · simp [step, hstop]
  · simp [step_of_running hstop]

/-- Settles O25: the host's duties come first and are kept, so the fault is what stops the step. -/
theorem reservedStatusIsAFault : Obligations.ReservedStatusIsAFault := by
  intro s hkeep hline hrst hv hres
  have hstop : s.stopped = some (.fault .reservedStatus) := by
    simp [stopped_of_host_kept hkeep hline, hrst, hv, reservedCode_iff, hres]
  simp [step, hstop]

/-- Settles O42: a fault needs an offered status of 5 or more, and a faithful pipeline offers none above 4. -/
theorem faithfulNeverFaults : Obligations.FaithfulNeverFaults := by
  refine fun s h => ⟨fun f hf => ?_, h.status_le⟩
  obtain ⟨-, hv, hres⟩ := step_fault hf
  have hle := h.status_le hv
  have hge := (reservedCode_iff s.s3.st).1 hres
  omega

/-- Settles O44: a program's lines are well formed, and the request held is the line that drives the port. -/
theorem programHostKeepsItsDuty : Obligations.ProgramHostKeepsItsDuty :=
  ⟨fun _ _ h hst => h.of_step hst, fun _ h => step_ne_refused h.hostKeepsRequest h.lineFits⟩

/-! ## The statuses (R79, R80) -/

/-- An ENC_THR response is OK or the error of its value (R201). -/
theorem pureEncThr_cases (value : Operand) (telem inv : Bool) : (pureEncThr value telem inv).status = 0#3 ∨
    pureEncThr value telem inv = .error .invalidThrottle (value.setWidth 32) := by
  unfold pureEncThr
  split
  · exact .inl rfl
  · exact .inr rfl

/-- An ENC_CMD response is OK or the error of its code (R203). -/
theorem pureEncCmd_cases (p : Params) (code : Operand) (inv : Bool) : (pureEncCmd p code inv).status = 0#3 ∨
    pureEncCmd p code inv = .error .invalidCommand (code.setWidth 32) := by
  unfold pureEncCmd
  split
  · exact .inl rfl
  · exact .inr rfl

/-- A DEC_ERPM response is OK or the error of its value, which part A or part B raises (R202). -/
theorem pureDecErpm_cases (value : Operand) : (pureDecErpm value).status = 0#3 ∨
    pureDecErpm value = .error .malformedTelemetry (value.setWidth 32) := by
  have hdata : BitVec.ofNat 32 value.toNat = value.setWidth 32 := BitVec.ofNat_toNat 32 value
  simp only [pureDecErpm, hdata]
  split_ifs
  · exact .inr rfl
  · exact .inl rfl
  · exact .inr rfl
  · exact .inl rfl

/-- Which op gives which status, and the data of each error (R80, R201 to R204). -/
theorem opResponse_cases (p : Params) (w : ReqWord) :
    ((reqOp w).toNat < 6 ∧ (opResponse p w).status = 0#3) ∨
    (reqOp w = 0#3 ∧ opResponse p w = .error .invalidThrottle ((reqValue w).setWidth 32)) ∨
    (reqOp w = 5#3 ∧ opResponse p w = .error .malformedTelemetry ((reqValue w).setWidth 32)) ∨
    (reqOp w = 3#3 ∧ opResponse p w = .error .invalidCommand ((reqValue w).setWidth 32)) ∨
    (6 ≤ (reqOp w).toNat ∧ opResponse p w = .error .illegalOp (w.setWidth 32)) := by
  unfold opResponse
  rcases decode_cases w with ⟨ho, h⟩ | ⟨ho, h⟩ | ⟨ho, h⟩ | ⟨ho, h⟩ | ⟨ho, h⟩ | ⟨ho, h⟩ | ⟨ho, h⟩ | ⟨ho, h⟩ <;>
    rw [h, ho, pureResponse]
  · exact (pureEncThr_cases _ _ _).imp (⟨by decide, ·⟩) (.inl ⟨rfl, ·⟩)
  · exact .inl ⟨by decide, rfl⟩
  · exact .inl ⟨by decide, rfl⟩
  · exact (pureEncCmd_cases _ _ _).imp (⟨by decide, ·⟩) (.inr <| .inr <| .inl ⟨rfl, ·⟩)
  · exact .inl ⟨by decide, rfl⟩
  · exact (pureDecErpm_cases _).imp (⟨by decide, ·⟩) (.inr <| .inl ⟨rfl, ·⟩)
  · rw [encode_of_decode h rfl]
    exact .inr (.inr (.inr (.inr ⟨by decide, rfl⟩)))
  · rw [encode_of_decode h rfl]
    exact .inr (.inr (.inr (.inr ⟨by decide, rfl⟩)))

/-- Settles O59: by the five statuses, each with the one rule that raises it. -/
theorem statusesAndTheirData : Obligations.StatusesAndTheirData := by
  intro p w
  refine ⟨finish_partA_status_le p (decode w), ?_⟩
  rw [finish_stageA]
  rcases opResponse_cases p w with ⟨ho, h⟩ | ⟨ho, h⟩ | ⟨ho, h⟩ | ⟨ho, h⟩ | ⟨ho, h⟩ <;>
    simp [h, ho, Response.error, Status.code]

/-! ## The lines of a program (R86) -/

section
variable {s : State} {h : HostSide}

/-- A host with other lines that settle alike drives the same ports. -/
theorem ports_of_settle (hset : settle h.prog h.rspReady = settle s.host.prog s.host.rspReady) :
    ({ s with host := h } : State).ports = s.ports :=
  congrArg (drivenPorts s.draw) hset

/-- A host that settles alike and holds the same request does not change a step: a step reads the lines settled. -/
theorem step_of_settle (hset : settle h.prog h.rspReady = settle s.host.prog s.host.rspReady)
    (hheld : h.held = s.host.held) : step { s with host := h } = step s := by
  have hports := ports_of_settle hset
  have hafter (b : Bool) : ({ s with host := h } : State).hostAfter b = s.hostAfter b := by
    simp only [State.hostAfter, hports, hset]
  have hstall : ({ s with host := h } : State).stall = s.stall := by
    simp only [State.stall, hports]
  have hready : ({ s with host := h } : State).reqReady = s.reqReady := by
    simp only [State.reqReady, hports, hstall]
  have hkeep : ({ s with host := h } : State).hostKeepsRequest = s.hostKeepsRequest := by
    simp only [State.hostKeepsRequest, hports, hheld]
  have hline : ({ s with host := h } : State).lineFits = s.lineFits := by
    simp only [State.lineFits, hset]
  have hstop : ({ s with host := h } : State).stopped = s.stopped := by
    simp only [State.stopped, hkeep, hline, hports]
  cases hs : s.stopped with
  | some x => cases x <;> simp only [step, hstop, hs]
  | none =>
    rw [step_of_running (hstop.trans hs), step_of_running hs]
    simp only [clockEdge, State.blockEdge, hports, hafter, hstall, hready]
    split_ifs <;> rfl

end

/-- What the settled lines of a host fix: the ports of the cycle, and the host after the step (R86). -/
theorem settled_lines {s t : State} {ls : List HostLine} {b : Bool} (hst : step s = .next t)
    (hset : settle s.host.prog s.host.rspReady = (ls, b)) :
    s.ports = drivenPorts s.draw (ls, b) ∧ t.host.prog = linesAfter (s.ports.reqValid && s.reqReady) ls ∧
      t.host.rspReady = b := by
  obtain ⟨-, rfl⟩ := step_next hst
  simp only [clockEdge_host, State.hostAfter, State.ports, hset, and_self]

/-- `IDLE n` and `RESET n` end at their n-th edge (R86): the count that is left. -/
theorem linesAfter_idle (accepted : Bool) (n : Nat) (rest : List HostLine) :
    linesAfter accepted (.idle (n + 1) :: rest) = if n = 0 then rest else .idle n :: rest := by
  simp [linesAfter]

theorem linesAfter_reset (accepted : Bool) (n : Nat) (rest : List HostLine) :
    linesAfter accepted (.reset (n + 1) :: rest) = if n = 0 then rest else .reset n :: rest := by
  simp [linesAfter]

/-- Settles O45: by the line at the head, from the ports the settled lines drive and the lines the edge leaves. -/
theorem programLinesDriveThePorts : Obligations.ProgramLinesDriveThePorts := by
  refine ⟨fun s b rest hprog => ?_, fun s t rest hst => ⟨?_, ?_, ?_, ?_, ?_⟩⟩
  · have hset : settle rest b = settle s.host.prog s.host.rspReady := by rw [hprog, settle_rspReady]
    exact ⟨(ports_of_settle (h := ⟨rest, b, s.host.held⟩) hset).symm,
      (step_of_settle (h := ⟨rest, b, s.host.held⟩) hset rfl).symm⟩
  · intro w hprog
    obtain ⟨hports, hlines, hready⟩ :=
      settled_lines (ls := .request w :: rest) (b := s.host.rspReady) hst (by rw [hprog, settle])
    refine ⟨hports, hready, fun h => ?_, fun h => ?_⟩
    · rw [hlines, hports, h]
      rfl
    · rw [hlines, h, Bool.and_false, hprog]
      rfl
  · intro n hprog
    obtain ⟨hports, hlines, hready⟩ :=
      settled_lines (ls := .idle (n + 1) :: rest) (b := s.host.rspReady) hst (by rw [hprog, settle])
    rw [hports, hlines, linesAfter_idle]
    exact ⟨rfl, rfl, rfl, hready, rfl⟩
  · intro n hprog
    obtain ⟨hports, hlines, hready⟩ :=
      settled_lines (ls := .reset (n + 1) :: rest) (b := s.host.rspReady) hst (by rw [hprog, settle])
    rw [hports, hlines, linesAfter_reset]
    exact ⟨rfl, rfl, rfl, hready, rfl⟩
  · intro b hprog
    obtain ⟨hports, hlines, hready⟩ :=
      settled_lines (ls := []) (b := b) hst (by rw [hprog, settle_rspReady, settle])
    rw [hports, hlines]
    exact ⟨rfl, rfl, rfl, rfl, hready⟩
  · intro hprog
    obtain ⟨hports, hlines, hready⟩ :=
      settled_lines (ls := []) (b := s.host.rspReady) hst (by rw [hprog, settle])
    rw [hports, hlines]
    exact ⟨rfl, rfl, rfl, rfl, hready⟩

end Sys2Proof.Machine

/-! The checksum and the frame by their bits (R100 to R103), and what an OK encode response holds: its own checksum
(R104, R105), and a payload of its family's range (R106). -/

namespace Sys2Proof.Machine

/-! ## The packet and its checksum (R100 to R102) -/

/-- The packet is the payload over the telemetry bit (R100). -/
theorem packet_eq_append (pay : Payload) (tel : Bool) : packet pay tel = pay ++ BitVec.ofBool tel :=
  BitVec.setWidth_append_eq_shiftLeft_setWidth_or.symm.trans (BitVec.setWidth_eq _)

/-- Shifting by `k` brings the nibble at bit `k` to the bottom. -/
theorem nibble_ushiftRight (x : BitVec 12) (k : Nat) : (x >>> k).extractLsb' 0 4 = x.extractLsb' k 4 := by
  ext j hj
  simp

/-- The fold's low nibble is the XOR of the three nibbles (R101). -/
theorem nibble_xorFold (x : BitVec 12) :
    (xorFold x).extractLsb' 0 4 = x.extractLsb' 0 4 ^^^ x.extractLsb' 4 4 ^^^ x.extractLsb' 8 4 := by
  rw [xorFold, BitVec.extractLsb'_xor, BitVec.extractLsb'_xor, nibble_ushiftRight, nibble_ushiftRight]

theorem checksum_standard (pay : Payload) (tel : Bool) :
    checksum pay tel false = (xorFold (packet pay tel)).extractLsb' 0 4 := rfl

/-- Complementing before the mask is complementing the nibble (R102). -/
theorem checksum_inverted (pay : Payload) (tel : Bool) : checksum pay tel true = ~~~ checksum pay tel false :=
  BitVec.extractLsb'_not_of_lt (by decide)

/-- Settles O47: the packet's layout, and the nibbles of the fold. -/
theorem checksumIsNibbleXor : Obligations.ChecksumIsNibbleXor := fun pay tel =>
  ⟨packet_eq_append pay tel, (checksum_standard pay tel).trans (nibble_xorFold _)⟩

/-- Settles O48: the complement as a nibble, then as a number. -/
theorem invertedChecksumIsComplement : Obligations.InvertedChecksumIsComplement := fun pay tel =>
  ⟨checksum_inverted pay tel, by rw [checksum_inverted, BitVec.toNat_not]⟩

/-! ## The frame (R103) -/

/-- The frame is `{pay, tel, csum}` (R103). -/
theorem frame_eq_append (pay : Payload) (tel : Bool) (csum : Nibble) :
    frame pay tel csum = pay ++ BitVec.ofBool tel ++ csum := by
  have h := BitVec.setWidth_append_append_eq_shiftLeft_setWidth_or (w''' := 16) (b := pay) (b' := BitVec.ofBool tel)
    (b'' := csum)
  rw [frame, ← h, BitVec.setWidth_eq]

/-- A concatenation as a number: the upper part moved up by the lower part's width. -/
theorem toNat_append_eq_add {m n : Nat} (x : BitVec m) (y : BitVec n) :
    (x ++ y).toNat = x.toNat * 2 ^ n + y.toNat := by
  rw [BitVec.toNat_append, ← Nat.shiftLeft_add_eq_or_of_lt y.isLt, Nat.shiftLeft_eq]

theorem frame_toNat (pay : Payload) (tel : Bool) (csum : Nibble) :
    (frame pay tel csum).toNat = pay.toNat * 32 + tel.toNat * 16 + csum.toNat := by
  rw [frame_eq_append, toNat_append_eq_add, toNat_append_eq_add, BitVec.toNat_ofBool]
  omega

/-- Settles O49: the concatenation, and its number. -/
theorem frameIsItsThreeFields : Obligations.FrameIsItsThreeFields := fun pay tel csum =>
  ⟨frame_eq_append pay tel csum, frame_toNat pay tel csum⟩

/-! ## The fields of a frame's data word (R80, R105) -/

/-- The data word of a frame keeps each field of its low half. -/
theorem frameData_field (f : Frame) {start len : Nat} (h : start + len ≤ 16) :
    (frameData f).extractLsb' start len = f.extractLsb' start len := by
  ext j hj
  simp [frameData, show start + j < 32 by omega]

theorem frameData_high (f : Frame) : (frameData f).extractLsb' 16 16 = 0#16 := by
  ext j hj
  simp [frameData]

theorem frameData_payload (pay : Payload) (tel : Bool) (csum : Nibble) :
    (frameData (frame pay tel csum)).extractLsb' 5 11 = pay := by
  rw [frameData_field _ (by decide), frame_eq_append, BitVec.append_assoc]
  exact BitVec.extractLsb'_append_eq_left

theorem frameData_telem (pay : Payload) (tel : Bool) (csum : Nibble) :
    (frameData (frame pay tel csum)).getLsbD 4 = tel := by
  rw [frameData, BitVec.getLsbD_setWidth, frame_eq_append, BitVec.getLsbD_append, BitVec.getLsbD_append]
  simp

theorem frameData_csum (pay : Payload) (tel : Bool) (csum : Nibble) :
    (frameData (frame pay tel csum)).extractLsb' 0 4 = csum := by
  rw [frameData_field _ (by decide), frame_eq_append]
  exact BitVec.extractLsb'_append_eq_right

/-! ## The entry of an OK encode request (R105) -/

/-- An entry that raises an error does not end in OK (R200). -/
theorem finish_raise_status_ne {st : Status} (h : st ≠ .ok) (d : Data) : (S1.raise st d).finish.status ≠ 0#3 := by
  rw [finish_raise h]
  exact Status.code_ne_zero h

/-- ENC_THR ends in OK only with a throttle in range, as the frame of its low 11 bits (R120). -/
theorem partAEncThr_of_ok {value : Operand} {telem inv : Bool} (h : (partAEncThr value telem inv).finish.status = 0#3) :
    throttleInRange value = true ∧ partAEncThr value telem inv = S1.encode (payloadOf value) telem inv := by
  by_cases hr : throttleInRange value = true
  · exact ⟨hr, if_pos hr⟩
  · rw [partAEncThr, if_neg hr] at h
    exact absurd h (finish_raise_status_ne (by decide) _)

/-- ENC_CMD ends in OK only with a code of the build, as the frame of its low 11 bits (R140). -/
theorem partAEncCmd_of_ok {p : Params} {code : Operand} {inv : Bool}
    (h : (partAEncCmd p code inv).finish.status = 0#3) :
    isCommand p code = true ∧ partAEncCmd p code inv = S1.encode (payloadOf code) true inv := by
  by_cases hc : isCommand p code = true
  · exact ⟨hc, if_pos hc⟩
  · rw [partAEncCmd, if_neg hc] at h
    exact absurd h (finish_raise_status_ne (by decide) _)

/-- The data of an encode entry's response is the frame of its payload and telemetry bit, with their checksum (R104). -/
theorem finish_encode_data (pay : Payload) (tel inv : Bool) :
    (S1.encode pay tel inv).finish.data = frameData (frame pay tel (checksum pay tel inv)) :=
  congrArg Response.data (finish_encode pay tel inv)

/-- Settles O50: the entry of an OK encode request is an encode entry with the request's telemetry bit and polarity, and
the fields of its response are those of a frame. -/
theorem okEncodeResponsesAreFrames : Obligations.OkEncodeResponsesAreFrames := by
  intro p i tel inv hi hok
  have hentry : ∃ pay, partA p i = S1.encode pay tel inv := by
    rcases hi with ⟨value, rfl⟩ | ⟨value, rfl⟩ | rfl | ⟨rfl, code, rfl⟩ | ⟨rfl, reverse, rfl⟩
    · exact ⟨_, (partAEncThr_of_ok hok).2⟩
    · exact ⟨_, rfl⟩
    · exact ⟨_, rfl⟩
    · exact ⟨_, (partAEncCmd_of_ok hok).2⟩
    · exact ⟨_, rfl⟩
  obtain ⟨pay, hpay⟩ := hentry
  rw [hpay, finish_encode_data, frameData_payload, frameData_telem]
  exact ⟨frameData_high _, rfl, rfl, frameData_csum _ _ _⟩

/-! ## The payloads of the two families (R106) -/

/-- An OK throttle response has a payload of the throttle range (R8, R120 to R122). -/
theorem throttle_payload_bounds {p : Params} {i : Instr} {value : Operand} {telem inv : Bool}
    (hi : i = .encThr value telem inv ∨ i = .encThrClamp value telem inv ∨ i = .encThrMin telem inv)
    (hok : (partA p i).finish.status = 0#3) :
    48 ≤ ((partA p i).finish.data.extractLsb' 5 11).toNat ∧
      ((partA p i).finish.data.extractLsb' 5 11).toNat ≤ 2047 := by
  rcases hi with rfl | rfl | rfl
  · obtain ⟨hr, hentry⟩ := partAEncThr_of_ok hok
    have hrange := (throttleInRange_iff value).1 hr
    rw [partA, hentry, finish_encode_data, frameData_payload, payloadOf_toNat (by omega)]
    exact hrange
  · obtain ⟨hlo, hhi, hval⟩ := clampedThrottle_bounds value
    rw [partA, partAEncThrClamp, finish_encode_data, frameData_payload, hval]
    exact ⟨hlo, hhi⟩
  · rw [partA, partAEncThrMin, finish_encode_data, frameData_payload]
    decide

/-- A command code of a build that R9 allows passes into the payload whole (R140). -/
theorem payload_of_code {p : Params} (hp : p.wellFormed = true) {c : Nat} (hc : c ∈ p.cmdValid) :
    (BitVec.ofNat 11 c).toNat = c := by
  rw [BitVec.toNat_ofNat, Nat.mod_eq_of_lt (Nat.lt_trans (cmdValid_lt hp hc) (by decide))]

/-- An OK command response has a payload of P_CMD_VALID (R9, R140, R141). -/
theorem command_payload_mem {p : Params} (hp : p.wellFormed = true) {i : Instr} {code : Operand} {reverse inv : Bool}
    (hi : i = .encCmd code inv ∨ i = .encRev reverse inv) (hok : (partA p i).finish.status = 0#3) :
    ((partA p i).finish.data.extractLsb' 5 11).toNat ∈ p.cmdValid := by
  rcases hi with rfl | rfl
  · obtain ⟨hc, hentry⟩ := partAEncCmd_of_ok hok
    have hmem := (isCommand_iff p code).1 hc
    rw [partA, hentry, finish_encode_data, frameData_payload, payloadOf_eq_ofNat, payload_of_code hp hmem]
    exact hmem
  · have hmem := spinCode_mem hp reverse
    rw [partA, partAEncRev, finish_encode_data, frameData_payload, payload_of_code hp hmem]
    exact hmem

/-- Settles O51: throttle payloads are in the throttle range, and command payloads are codes of the build, which R9
keeps below it. -/
theorem throttleAndCommandPayloadsAreDisjoint : Obligations.ThrottleAndCommandPayloadsAreDisjoint := by
  intro p i hp hok
  constructor
  · rintro ⟨value, telem, inv, hi⟩
    exact throttle_payload_bounds hi hok
  · rintro ⟨code, reverse, inv, hi⟩
    exact Nat.le_of_lt_succ (cmdValid_lt hp (command_payload_mem hp hi hok))

end Sys2Proof.Machine

/-! The throttle family: ENC_THR (R120), ENC_THR_CLAMP (R121), ENC_THR_MIN (R122), the laws between them (R123), and the
source's own examples. -/

namespace Sys2Proof.Machine

/-! ## The encodings (R71) -/

/-- Op 0 is ENC_THR (R120). -/
theorem decode_encThr {w : ReqWord} (h : reqOp w = 0#3) : decode w = .encThr (reqValue w) (reqTelem w) (reqInv w) := by
  simpa [h] using decode_cases w

/-- Op 1 is ENC_THR_CLAMP (R121). -/
theorem decode_encThrClamp {w : ReqWord} (h : reqOp w = 1#3) :
    decode w = .encThrClamp (reqValue w) (reqTelem w) (reqInv w) := by
  simpa [h] using decode_cases w

/-- Op 2 is ENC_THR_MIN, which reads no value field (R75, R122). -/
theorem decode_encThrMin {w : ReqWord} (h : reqOp w = 2#3) : decode w = .encThrMin (reqTelem w) (reqInv w) := by
  simpa [h] using decode_cases w

/-! ## Part A of the three operations (R120 to R123) -/

/-- ENC_THR of a throttle in range fills an encode entry with its low 11 bits (R120). -/
theorem partAEncThr_of_inRange {value : Operand} (h : 48 ≤ value.toNat ∧ value.toNat ≤ 2047) (telem inv : Bool) :
    partAEncThr value telem inv = S1.encode (payloadOf value) telem inv :=
  if_pos ((throttleInRange_iff value).2 h)

/-- ENC_THR of any other value raises INVALID_THROTTLE with the value (R120). -/
theorem partAEncThr_of_outOfRange {value : Operand} (h : ¬ (48 ≤ value.toNat ∧ value.toNat ≤ 2047))
    (telem inv : Bool) : partAEncThr value telem inv = S1.raise .invalidThrottle (operandData value) :=
  if_neg (h ∘ (throttleInRange_iff value).1)

/-- ENC_THR_CLAMP is ENC_THR of the clamped value, which is in range (R123). -/
theorem partAEncThrClamp_eq_encThr (value : Operand) (telem inv : Bool) :
    partAEncThrClamp value telem inv = partAEncThr (BitVec.ofNat 16 (clampedThrottle value)) telem inv := by
  obtain ⟨hlo, hhi, -⟩ := clampedThrottle_bounds value
  have hval : (BitVec.ofNat 16 (clampedThrottle value)).toNat = clampedThrottle value := by
    rw [BitVec.toNat_ofNat, Nat.mod_eq_of_lt (by omega)]
  rw [partAEncThr_of_inRange (by rw [hval]; exact ⟨hlo, hhi⟩), payloadOf_eq_ofNat, hval]
  rfl

/-- ENC_THR_MIN is ENC_THR of the lowest throttle (R123). -/
theorem partAEncThrMin_eq_encThr (telem inv : Bool) : partAEncThrMin telem inv = partAEncThr 48#16 telem inv :=
  (partAEncThr_of_inRange (value := 48#16) (by decide) telem inv).symm

/-! ## An encode entry in S1 (R31 to R33) -/

/-- An accepted encode entry: its fields, the checksum stage B gives it, and the frame it ends in (R32, R33). -/
theorem accepted_encode {e : S1} {pay : Payload} {tel inv : Bool} (h : e = { S1.encode pay tel inv with v := true }) :
    e = ⟨true, false, 0#3, 0#32, pay, tel, inv, false, 0#12⟩ ∧ e.pay = pay ∧
    (stageB e).csum = checksum pay tel inv ∧
    e.finish = ⟨0#3, (frame pay tel (checksum pay tel inv)).setWidth 32⟩ := by
  subst h
  exact ⟨rfl, rfl, rfl, finish_encode pay tel inv⟩

/-! ## The three operations -/

/-- Settles O26: by the range check; in range the 11 payload bits keep the value. -/
theorem encThrResult : Obligations.EncThrResult := by
  refine ⟨fun _ => decode_encThr, fun s value telem inv hready => ?_⟩
  obtain ⟨t, hexec, hs1⟩ := exec_of_ready (.encThr value telem inv) hready
  refine ⟨t, hexec, fun hin => ?inRange, fun hout => ?outOfRange⟩
  case inRange =>
    rw [partA, partAEncThr_of_inRange hin] at hs1
    obtain ⟨hentry, hpay, hcsum, hfinish⟩ := accepted_encode hs1
    rw [hpay]
    exact ⟨hentry, payloadOf_toNat (by omega), hcsum, hfinish⟩
  case outOfRange =>
    rw [partA, partAEncThr_of_outOfRange hout] at hs1
    rw [hs1, S1.finish_valid]
    exact ⟨rfl, finish_raise (by decide) _⟩

/-- Settles O27: an encode entry for every value, whose 11 payload bits keep the clamped value. -/
theorem encThrClampResult : Obligations.EncThrClampResult := by
  refine ⟨fun _ => decode_encThrClamp, fun s value telem inv hready => ?_⟩
  obtain ⟨t, hexec, hs1⟩ := exec_of_ready (.encThrClamp value telem inv) hready
  obtain ⟨hentry, hpay, hcsum, hfinish⟩ := accepted_encode hs1
  obtain ⟨-, -, hval⟩ := clampedThrottle_bounds value
  refine ⟨t, hexec, ?_⟩
  rw [hpay]
  exact ⟨hval, hentry, hcsum, hfinish⟩

/-- The four frames of ENC_THR_MIN (R122). -/
theorem encThrMin_frames (telem inv : Bool) : (frame 48#11 telem (checksum 48#11 telem inv)).setWidth 32 =
    if telem then (if inv then 0x0618#32 else 0x0617#32) else (if inv then 0x0609#32 else 0x0606#32) := by
  cases telem <;> cases inv <;> decide

/-- Settles O28: an encode entry of payload 48, which is part A of ENC_THR 48 and so of ENC_THR_CLAMP 0. -/
theorem encThrMinResult : Obligations.EncThrMinResult := by
  refine ⟨fun _ => decode_encThrMin, fun s telem inv hready => ?_⟩
  obtain ⟨t, hexec, hs1⟩ := exec_of_ready (.encThrMin telem inv) hready
  obtain ⟨hentry, -, hcsum, hfinish⟩ := accepted_encode hs1
  have hthr : t.s1.finish = (partAEncThr 48#16 telem inv).finish := by
    rw [hs1, S1.finish_valid, partA, partAEncThrMin_eq_encThr]
  have hclamp : partAEncThrClamp 0#16 telem inv = partAEncThr 48#16 telem inv :=
    partAEncThrClamp_eq_encThr 0#16 telem inv
  exact ⟨t, hexec, hentry, hcsum, hfinish.trans (congrArg _ (encThrMin_frames telem inv)), hthr,
    hthr.trans (congrArg _ hclamp.symm)⟩

/-! ## The family's laws (R123) -/

/-- An operation of the throttle family with this telemetry bit and polarity is one of the encode operations (R105). -/
theorem isEncode_of_throttle {j : Instr} {value : Operand} {t i : Bool}
    (hj : j = .encThr value t i ∨ j = .encThrClamp value t i ∨ j = .encThrMin t i) :
    (∃ value, j = .encThr value t i) ∨ (∃ value, j = .encThrClamp value t i) ∨ j = .encThrMin t i ∨
      (t = true ∧ ∃ code, j = .encCmd code i) ∨ (t = true ∧ ∃ reverse, j = .encRev reverse i) :=
  hj.imp (⟨value, ·⟩) (Or.imp (⟨value, ·⟩) .inl)

/-- Settles O52: the laws between the three hold of their part A already, and an OK response is a frame (R105) with a
payload in the throttle range (R106). -/
theorem throttleFamilyLaws : Obligations.ThrottleFamilyLaws := by
  intro p value t i
  refine ⟨fun hin => ?inRange, fun hout => ?outOfRange, ?clamp, ?min, fun j hj hok => ?ok⟩
  case inRange =>
    have hok : (partA p (.encThr value t i)).finish.status = 0#3 := by
      rw [partA, partAEncThr_of_inRange hin, finish_encode]
      rfl
    obtain ⟨-, -, -, hcsum⟩ := okEncodeResponsesAreFrames p _ t i (.inl ⟨value, rfl⟩) hok
    exact ⟨hok, hcsum⟩
  case outOfRange =>
    rw [partA, partAEncThr_of_outOfRange hout]
    exact finish_raise (by decide) _
  case clamp => exact congrArg S1.finish (partAEncThrClamp_eq_encThr value t i)
  case min => exact congrArg S1.finish (partAEncThrMin_eq_encThr t i)
  case ok =>
    obtain ⟨hlo, hhi⟩ := throttle_payload_bounds hj hok
    obtain ⟨hhigh, -, htelem, -⟩ := okEncodeResponsesAreFrames p j t i (isEncode_of_throttle hj) hok
    exact ⟨hlo, hhi, htelem, hhigh⟩

/-! ## The source's examples -/

/-- The response to a request word, from the operation it decodes to (R15). -/
theorem finish_stageA_of_decode (p : Params) {w : ReqWord} {i : Instr} (h : decode w = i) :
    (stageA p w).finish = pureResponse p i := by
  rw [finish_stageA, opResponse, h]

/-- Settles O60: the operation each word decodes to, and its pure response, which reads no parameter. -/
theorem sourceExamples : Obligations.SourceExamples := fun p =>
  ⟨finish_stageA_of_decode p (i := .encThr 48#16 false false) (by decide),
    finish_stageA_of_decode p (i := .encThr 2047#16 false false) (by decide),
    finish_stageA_of_decode p (i := .encThrClamp 48#16 true false) (by decide),
    finish_stageA_of_decode p (i := .encThrClamp 2047#16 true false) (by decide),
    finish_stageA_of_decode p (i := .decErpm 0x0FFF#16) (by decide)⟩

end Sys2Proof.Machine

/-! The command family: ENC_CMD (R140), ENC_REV (R141), and its law (R142). -/

namespace Sys2Proof.Machine

/-! ## The encodings (R71) -/

/-- Op 3 is ENC_CMD, which reads no telemetry bit (R75, R140). -/
theorem decode_encCmd {w : ReqWord} (h : reqOp w = 3#3) : decode w = .encCmd (reqValue w) (reqInv w) := by
  simpa [h] using decode_cases w

/-- Op 4 is ENC_REV, which reads bit 0 of the value field alone (R75, R141). -/
theorem decode_encRev {w : ReqWord} (h : reqOp w = 4#3) : decode w = .encRev (w.getLsbD 0) (reqInv w) := by
  simpa [h] using decode_cases w

/-! ## Part A of the two operations (R140, R141) -/

/-- ENC_CMD of a code of the build fills an encode entry with its low 11 bits and telemetry bit 1 (R140). -/
theorem partAEncCmd_of_mem {p : Params} {code : Operand} (h : code.toNat ∈ p.cmdValid) (inv : Bool) :
    partAEncCmd p code inv = S1.encode (payloadOf code) true inv :=
  if_pos ((isCommand_iff p code).2 h)

/-- ENC_CMD of any other code raises INVALID_COMMAND with the code (R140). -/
theorem partAEncCmd_of_not_mem {p : Params} {code : Operand} (h : code.toNat ∉ p.cmdValid) (inv : Bool) :
    partAEncCmd p code inv = S1.raise .invalidCommand (operandData code) :=
  if_neg (h ∘ (isCommand_iff p code).1)

/-- The chosen spin code as the value field of an ENC_CMD (R141). -/
def spinOperand (p : Params) (reverse : Bool) : Operand := BitVec.ofNat 16 (spinCode p reverse)

/-- A build that R9 allows has spin codes that pass into the value field whole. -/
theorem spinOperand_toNat {p : Params} (hp : p.wellFormed = true) (reverse : Bool) :
    (spinOperand p reverse).toNat = spinCode p reverse := by
  have hlt := cmdValid_lt hp (spinCode_mem hp reverse)
  rw [spinOperand, BitVec.toNat_ofNat, Nat.mod_eq_of_lt (by omega)]

/-- The chosen spin code's operand names a code of the build (R9). -/
theorem spinOperand_mem {p : Params} (hp : p.wellFormed = true) (reverse : Bool) :
    (spinOperand p reverse).toNat ∈ p.cmdValid := by
  rw [spinOperand_toNat hp]
  exact spinCode_mem hp reverse

/-- ENC_REV, which checks no membership, is ENC_CMD of the chosen spin code, which R9 keeps in P_CMD_VALID (R141). -/
theorem partAEncRev_eq_encCmd {p : Params} (hp : p.wellFormed = true) (reverse inv : Bool) :
    partAEncRev p reverse inv = partAEncCmd p (spinOperand p reverse) inv := by
  rw [partAEncCmd_of_mem (spinOperand_mem hp reverse), payloadOf_eq_ofNat, spinOperand_toNat hp]
  rfl

/-! ## The two operations -/

/-- An accepted ENC_CMD of a code of the build: its entry, whose payload is the code, its checksum and the frame it ends
in (R140). -/
theorem accepted_encCmd {p : Params} (hp : p.wellFormed = true) {code : Operand} (hc : code.toNat ∈ p.cmdValid)
    {e : S1} {inv : Bool} (h : e = { partAEncCmd p code inv with v := true }) :
    e = ⟨true, false, 0#3, 0#32, code.extractLsb' 0 11, true, inv, false, 0#12⟩ ∧
    e.pay.toNat = code.toNat ∧
    (stageB e).csum = checksum e.pay true inv ∧
    e.finish = ⟨0#3, (frame e.pay true (checksum e.pay true inv)).setWidth 32⟩ := by
  rw [partAEncCmd_of_mem hc] at h
  obtain ⟨hentry, hpay, hcsum, hfinish⟩ := accepted_encode h
  have hlt := cmdValid_lt hp hc
  rw [hpay]
  exact ⟨hentry, payloadOf_toNat (by omega), hcsum, hfinish⟩

/-- Settles O29: by membership of the code in P_CMD_VALID, whose codes R9 keeps below 48. -/
theorem encCmdResult : Obligations.EncCmdResult := by
  refine ⟨fun _ => decode_encCmd, fun s code inv hp hready => ?_⟩
  obtain ⟨t, hexec, hs1⟩ := exec_of_ready (.encCmd code inv) hready
  refine ⟨t, hexec, fun hmem => accepted_encCmd hp hmem hs1, fun hnot => ?notMember,
    fun hge hmem => absurd (cmdValid_lt hp hmem) (Nat.not_lt.2 hge)⟩
  case notMember =>
    rw [partA, partAEncCmd_of_not_mem hnot] at hs1
    rw [hs1, S1.finish_valid]
    exact ⟨rfl, finish_raise (by decide) _⟩

/-- Settles O30: the entry is that of ENC_CMD with the chosen spin code, a code of the build. -/
theorem encRevResult : Obligations.EncRevResult := by
  refine ⟨fun _ => decode_encRev, fun s reverse inv hp hready => ?_⟩
  obtain ⟨t, hrev, ht⟩ := exec_of_ready (.encRev reverse inv) hready
  obtain ⟨u, hcmd, hu⟩ := exec_of_ready (.encCmd (spinOperand s.params reverse) inv) hready
  rw [partA, partAEncRev_eq_encCmd hp] at ht
  obtain ⟨hentry, hpay, hcsum, hfinish⟩ := accepted_encCmd hp (spinOperand_mem hp reverse) ht
  have hsame : t.s1.finish = u.s1.finish := congrArg S1.finish (ht.trans hu.symm)
  exact ⟨t, u, _, hrev, spinOperand_toNat hp reverse, hentry, hpay, hcsum, hfinish, hcmd, hsame⟩

/-! ## The family's law (R142) -/

/-- Settles O53: an OK response is a frame with telemetry bit 1 (R105) and a code of the build as its payload (R106). -/
theorem commandFamilyLaw : Obligations.CommandFamilyLaw := by
  rintro p i hp ⟨code, reverse, inv, hi⟩ hok
  obtain ⟨hhigh, -, htelem, -⟩ := okEncodeResponsesAreFrames p i true inv
    (.inr (.inr (.inr (hi.imp (⟨rfl, code, ·⟩) (⟨rfl, reverse, ·⟩))))) hok
  exact ⟨htelem, command_payload_mem hp hi hok, hhigh⟩

end Sys2Proof.Machine

/-! The telemetry family: the period (R161, R164), the divide (R162, R165), DEC_ERPM (R160), and the law of its sentinel
(R163). -/

namespace Sys2Proof.Machine

/-! ## The period (R161) -/

/-- Every period, the sentinel's 511 * 2^7 among them, is at most 65408 (R161). -/
theorem periodOf_le_max (raw : Raw) : (periodOf raw).toNat ≤ 65408 := by
  by_cases h : raw = Config.erpmNoData
  · rw [h]
    decide
  · exact (periodOf_le h).trans (by decide)

/-- A nonzero mantissa stays nonzero under every exponent (R161). -/
theorem periodOf_eq_zero_iff (raw : Raw) : periodOf raw = 0#16 ↔ raw.toNat % 512 = 0 := by
  rw [← BitVec.toNat_inj, periodOf_toNat, BitVec.toNat_ofNat, Nat.zero_mod, Nat.mul_eq_zero,
    or_iff_left (Nat.two_pow_pos _).ne']

/-- Settles O54: no bit is shifted out of the 16, and the power of 2 is not 0. -/
theorem periodLosesNoBit : Obligations.PeriodLosesNoBit := by
  refine fun raw => ⟨periodOf_toNat raw, periodOf_le_max raw, ?_⟩
  rw [periodOf_eq_zero_iff, ← mantissa_toNat]
  exact BitVec.toNat_inj (y := 0#9)

/-! ## The divide (R162, R165) -/

theorem period_pos {p : Period} (h : p ≠ 0#16) : 1 ≤ p.toNat :=
  Nat.one_le_iff_ne_zero.2 fun hz => h (BitVec.eq_of_toNat_eq hz)

/-- The quotient fits the data word (R162). -/
theorem erpmDivide_toNat {p : Period} (h : 1 ≤ p.toNat) :
    (erpmDivide p).toNat = (600000 + p.toNat / 2) / p.toNat := by
  have hle : (600000 + p.toNat / 2) / p.toNat ≤ 600000 + p.toNat / 2 := Nat.div_le_self _ _
  have hp := p.isLt
  rw [erpmDivide_of_ne_zero (by omega), BitVec.toNat_ofNat, Nat.mod_eq_of_lt (by omega)]

/-- The quotient is 600000 / p rounded half up, on the exact rational (R162). -/
theorem erpmDivide_eq_floor {p : Period} (h : 1 ≤ p.toNat) :
    ((erpmDivide p).toNat : ℤ) = ⌊(600000 / p.toNat : ℚ) + 1 / 2⌋ := by
  have hp : (p.toNat : ℚ) ≠ 0 := Nat.cast_ne_zero.2 (by omega)
  have hsum : (600000 / p.toNat : ℚ) + 1 / 2 = ((1200000 + p.toNat : ℕ) : ℚ) / ((2 * p.toNat : ℕ) : ℚ) := by
    push_cast
    field_simp
    ring
  have hhalf : (1200000 + p.toNat) / 2 = 600000 + p.toNat / 2 := by omega
  rw [hsum, Rat.floor_natCast_div_natCast, erpmDivide_toNat h, ← hhalf, Nat.div_div_eq_div_mul, Int.natCast_div]

/-- Every telemetry period gives a quotient in [9, 600000] (R162). -/
theorem erpmDivide_bounds {p : Period} (h1 : 1 ≤ p.toNat) (h2 : p.toNat ≤ 65408) :
    9 ≤ (erpmDivide p).toNat ∧ (erpmDivide p).toNat ≤ 600000 := by
  rw [erpmDivide_toNat h1]
  exact ⟨(Nat.le_div_iff_mul_le h1).2 (by omega), Nat.div_le_of_le_mul (by omega)⟩

/-- A larger period gives no larger a quotient: the rational falls, and rounding keeps the order (R165). -/
theorem erpmDivide_antitone {p q : Period} (hp : 1 ≤ p.toNat) (hpq : p.toNat ≤ q.toNat) :
    (erpmDivide q).toNat ≤ (erpmDivide p).toNat := by
  rw [← Int.ofNat_le, erpmDivide_eq_floor hp, erpmDivide_eq_floor (hp.trans hpq)]
  gcongr

/-- A tie is 128 times a divisor of 9375: 600000 is half of it times an odd number, and 600000 = 64 * 9375 (R162). -/
theorem tie_dvd {p : Nat} (h : 2 * (600000 % p) = p) : ∃ d, p = 128 * d ∧ d ∣ 9375 := by
  have hmul : 600000 % p * (2 * (600000 / p) + 1) = 64 * 9375 :=
    calc 600000 % p * (2 * (600000 / p) + 1)
      _ = 2 * (600000 % p) * (600000 / p) + 600000 % p := by ring
      _ = 600000 := by rw [h]; exact Nat.div_add_mod 600000 p
  have hodd : Nat.Coprime (2 ^ 6) (2 * (600000 / p) + 1) := Nat.Coprime.pow_left 6 (by simp)
  obtain ⟨d, hd⟩ : 2 ^ 6 ∣ 600000 % p := hodd.dvd_of_dvd_mul_right (hmul ▸ Nat.dvd_mul_right 64 9375)
  refine ⟨d, by omega, 2 * (600000 / p) + 1, ?_⟩
  rw [hd, Nat.mul_assoc] at hmul
  exact (Nat.eq_of_mul_eq_mul_left (by decide) hmul).symm

/-- The eight ties among the telemetry periods (R162). -/
theorem tie_iff {p : Nat} (hp : p ≤ 65408) :
    2 * (600000 % p) = p ↔ p ∈ [128, 384, 640, 1920, 3200, 9600, 16000, 48000] := by
  constructor
  · intro h
    obtain ⟨d, rfl, hdvd⟩ := tie_dvd h
    have hd : d ∈ Nat.divisors 9375 := Nat.mem_divisors.2 ⟨hdvd, by decide⟩
    simp only [Nat.divisors_ofNat, Finset.mem_insert, Finset.mem_singleton] at hd
    simp only [List.mem_cons, List.not_mem_nil, or_false]
    omega
  · have hall : ∀ p ∈ [128, 384, 640, 1920, 3200, 9600, 16000, 48000], 2 * (600000 % p) = p := by decide
    exact hall p

/-- Settles O55: the exact quotient, its bounds, its rounding and its ties, each by its own lemma. -/
theorem divideRoundsHalfUp : Obligations.DivideRoundsHalfUp := fun p h1 h2 => by
  obtain ⟨hlo, hhi⟩ := erpmDivide_bounds h1 h2
  exact ⟨erpmDivide_toNat h1, hlo, hhi, by omega, erpmDivide_eq_floor h1, tie_iff h2⟩

/-! ## DEC_ERPM's entry and response (R160) -/

/-- Op 5 is DEC_ERPM, which reads no telemetry bit and no polarity (R75, R160). -/
theorem decode_decErpm {w : ReqWord} (h : reqOp w = 5#3) : decode w = .decErpm (reqValue w) := by
  simpa [h] using decode_cases w

/-- A value wider than 12 bits raises MALFORMED_TELEMETRY in part A (R160). -/
theorem partADecErpm_of_wide {value : Operand} (h : value.extractLsb' 12 4 ≠ 0#4) :
    partADecErpm value = S1.raise .malformedTelemetry (operandData value) :=
  if_neg (h ∘ (isReading_iff value).1)

/-- A 12-bit value is its raw value, widened (R160). -/
theorem setWidth_rawOf {value : Operand} (h : value.extractLsb' 12 4 = 0#4) (n : Nat) :
    (rawOf value).setWidth n = value.setWidth n := by
  apply BitVec.eq_of_toNat_eq
  rw [BitVec.toNat_setWidth, BitVec.toNat_setWidth, rawOf_toNat ((isReading_iff value).2 h)]

/-- The sentinel fills a decode entry with its sentinel bit (R160). -/
theorem partADecErpm_sentinel : partADecErpm 0x0FFF#16 = S1.reading 0xFFF#12 true := by decide

/-- Any other 12-bit value fills a decode entry with its raw value (R160). -/
theorem partADecErpm_of_reading {value : Operand} (h : value.extractLsb' 12 4 = 0#4) (hn : value ≠ 0x0FFF#16) :
    partADecErpm value = S1.reading (rawOf value) false := by
  have hr := (isReading_iff value).2 h
  have hraw : rawOf value ≠ Config.erpmNoData := fun he =>
    hn (BitVec.eq_of_toNat_eq ((rawOf_toNat hr).symm.trans ((eq_erpmNoData_iff _).1 he)))
  rw [partADecErpm, if_pos hr, beq_eq_false_iff_ne.2 hraw]

/-- The response of a 12-bit value that is not the sentinel, by its period (R160). -/
theorem finish_decErpm_of_reading {value : Operand} (h : value.extractLsb' 12 4 = 0#4) (hn : value ≠ 0x0FFF#16) :
    (partADecErpm value).finish = if periodOf (rawOf value) = 0#16 then .error .malformedTelemetry (value.setWidth 32)
      else .ok (erpmDivide (periodOf (rawOf value))) := by
  rw [partADecErpm_of_reading h hn, finish_reading, setWidth_rawOf h]

/-- A 12-bit value's period as a number (R160). -/
theorem periodOf_rawOf_toNat {value : Operand} (h : value.extractLsb' 12 4 = 0#4) :
    (periodOf (rawOf value)).toNat = value.toNat % 512 * 2 ^ (value.toNat / 512 % 8) := by
  have hr := (isReading_iff value).2 h
  have hlt := (isReading_iff_toNat value).1 hr
  rw [periodOf_toNat, rawOf_toNat hr, Nat.mod_eq_of_lt (show value.toNat / 512 < 8 by omega)]

/-- An accepted decode entry that is not the sentinel: its fields, and by its period the error stage B raises or the
period it passes on, with the response of each (R32, R33, R160). -/
theorem accepted_reading {e : S1} {raw : Raw} {p : Nat} (h : e = { S1.reading raw false with v := true })
    (hp : (periodOf raw).toNat = p) :
    e = ⟨true, true, 0#3, 0#32, 0#11, false, false, false, raw⟩ ∧
    (p = 0 → (stageB e).st = 2#3 ∧ (stageB e).err = raw.setWidth 32 ∧ e.finish = ⟨2#3, raw.setWidth 32⟩) ∧
    (p ≠ 0 → (stageB e).period.toNat = p ∧ e.finish = ⟨0#3, BitVec.ofNat 32 ((600000 + p / 2) / p)⟩) := by
  have hstage : stageB e = periodPart raw (S2.copy (S1.reading raw false)) := by
    rw [h, stageB_valid, stageB_of_reading rfl rfl rfl, S1.reading_raw]
  have hfinish := finish_reading_of_period hp
  rw [← S1.finish_valid _ true, ← h] at hfinish
  rw [hstage, hfinish]
  refine ⟨h, fun hz => ?zero, fun hnz => ?nonzero⟩
  case zero =>
    rw [periodPart, if_pos (BitVec.eq_of_toNat_eq (y := 0#16) (hp.trans hz)), if_pos hz, BitVec.ofNat_toNat]
    exact ⟨rfl, rfl, rfl⟩
  case nonzero =>
    rw [periodPart, if_neg fun he => hnz (by rw [← hp, he]; rfl), if_neg hnz]
    exact ⟨hp, rfl⟩

/-- Settles O31: by the width check, the sentinel and the period, the rule's four cases. -/
theorem decErpmResult : Obligations.DecErpmResult := by
  refine ⟨fun _ => decode_decErpm, fun s value hready => ?_⟩
  obtain ⟨t, hexec, hs1⟩ := exec_of_ready (.decErpm value) hready
  rw [partA] at hs1
  refine ⟨t, hexec, fun hwide => ?wide, fun hsent => ?sentinel, fun hread hn => ?reading⟩
  case wide =>
    rw [hs1, partADecErpm_of_wide hwide, S1.finish_valid]
    exact ⟨rfl, finish_raise (by decide) _⟩
  case sentinel =>
    rw [hs1, hsent, partADecErpm_sentinel, S1.finish_valid]
    exact ⟨rfl, finish_sentinel _⟩
  case reading =>
    rw [partADecErpm_of_reading hread hn] at hs1
    rw [← setWidth_rawOf hread]
    exact ⟨(accepted_reading hs1 rfl).1, fun p hp =>
      (accepted_reading hs1 ((periodOf_rawOf_toNat hread).trans hp.symm)).2⟩

/-! ## Its laws (R163 to R165) -/

/-- Settles O56: the sentinel's data is 0, and any other OK response is the quotient of a nonzero period. -/
theorem sentinelIsDistinguishable : Obligations.SentinelIsDistinguishable := by
  intro p value hok
  rw [partA] at hok ⊢
  by_cases hsent : value = 0x0FFF#16
  · subst hsent
    rw [partADecErpm_sentinel, finish_sentinel]
    exact ⟨iff_of_true rfl rfl, absurd rfl⟩
  by_cases hread : value.extractLsb' 12 4 = 0#4
  · rw [finish_decErpm_of_reading hread hsent] at hok ⊢
    by_cases hz : periodOf (rawOf value) = 0#16
    · rw [if_pos hz] at hok
      exact absurd hok (Status.code_ne_zero (st := .malformedTelemetry) (by decide))
    · rw [if_neg hz]
      obtain ⟨hlo, hhi⟩ := erpmDivide_bounds (period_pos hz) (periodOf_le_max _)
      have hne : erpmDivide (periodOf (rawOf value)) ≠ 0#32 := fun h0 => absurd hlo (by rw [h0]; decide)
      exact ⟨iff_of_false hne hsent, fun _ => ⟨hlo, hhi⟩⟩
  · rw [partADecErpm_of_wide hread, finish_raise (by decide)] at hok
    exact absurd hok (Status.code_ne_zero (st := .malformedTelemetry) (by decide))

/-- The eight 12-bit values whose mantissa is 0 (R164). -/
theorem mem_zeroPeriods_iff (value : Operand) :
    value ∈ [0x000#16, 0x200#16, 0x400#16, 0x600#16, 0x800#16, 0xA00#16, 0xC00#16, 0xE00#16] ↔
      value.toNat / 2 ^ 12 = 0 ∧ value.toNat % 512 = 0 := by
  simp only [List.mem_cons, List.not_mem_nil, or_false, ← BitVec.toNat_inj, BitVec.toNat_ofNat]
  omega

/-- Settles O57: the eight are the 12-bit values of mantissa 0, which are those of period 0. -/
theorem zeroPeriodReadings : Obligations.ZeroPeriodReadings := by
  intro p value hread
  have hr := (isReading_iff value).2 hread
  rw [partA]
  by_cases hsent : value = 0x0FFF#16
  · rw [hsent, partADecErpm_sentinel, finish_sentinel]
    decide
  · rw [finish_decErpm_of_reading hread hsent, mem_zeroPeriods_iff, and_iff_right ((isReading_iff_toNat value).1 hr),
      ← rawOf_toNat hr, ← periodOf_eq_zero_iff]
    by_cases hz : periodOf (rawOf value) = 0#16
    · rw [if_pos hz]
      exact iff_of_true rfl hz
    · rw [if_neg hz]
      exact iff_of_false (fun h => absurd (congrArg Response.status h) (show 0#3 ≠ 2#3 by decide)) hz

/-- The response to a raw value that is not the sentinel and has a nonzero period is its quotient (R160). -/
theorem finish_decErpm_of_raw {raw : Raw} (hs : raw ≠ 0xFFF#12) (hz : periodOf raw ≠ 0#16) :
    (partADecErpm (raw.setWidth 16)).finish = .ok (erpmDivide (periodOf raw)) := by
  have hread : (raw.setWidth 16).extractLsb' 12 4 = 0#4 := by
    rw [← isReading_iff, isReading_iff_toNat, BitVec.toNat_setWidth]
    omega
  have hraw : rawOf (raw.setWidth 16) = raw := by
    rw [← BitVec.setWidth_eq (rawOf _), setWidth_rawOf hread]
    simp
  have hn : raw.setWidth 16 ≠ 0x0FFF#16 := fun he => hs (by rw [← hraw, he]; rfl)
  rw [finish_decErpm_of_reading hread hn, hraw, if_neg hz]

/-- Settles O58: the quotients are in the reverse order of the periods, and each is the data of its response. -/
theorem decodeIsMonotonic : Obligations.DecodeIsMonotonic := by
  intro p r q hr hq hz hle
  have hpos := period_pos hz
  have hzq : periodOf q ≠ 0#16 := fun he => absurd (hpos.trans hle) (by rw [he]; decide)
  have hdiv := erpmDivide_antitone hpos hle
  rw [partA, partA, finish_decErpm_of_raw hr hz, finish_decErpm_of_raw hq hzq]
  exact ⟨hdiv, hdiv⟩

end Sys2Proof.Machine

/-! Errors: the illegal ops 6 and 7 (R204), and that an error affects nothing but its own response (R200). -/

namespace Sys2Proof.Machine

/-! ## The illegal ops (R76, R204) -/

/-- Op 6 is illegal, with its other 18 bits verbatim (R204). -/
theorem decode_illegalOp6 {w : ReqWord} (h : reqOp w = 6#3) : decode w = .illegalOp6 (reqRest w) := by
  simpa [h] using decode_cases w

/-- Op 7 is illegal, with its other 18 bits verbatim (R204). -/
theorem decode_illegalOp7 {w : ReqWord} (h : reqOp w = 7#3) : decode w = .illegalOp7 (reqRest w) := by
  simpa [h] using decode_cases w

/-- A request word, op over rest, passes into the data word whole (R80). -/
theorem setWidth_op_append (op : BitVec 3) (rest : BitVec 18) :
    (op ++ rest).setWidth 32 = BitVec.ofNat 32 (op.toNat * 2 ^ 18 + rest.toNat) := by
  rw [← toNat_append_eq_add, BitVec.ofNat_toNat]

/-- An accepted illegal op, by its op number: it raises ILLEGAL_OP with its request word, so S1 holds status 4, the word
and zeros, and that is its response (R31, R80, R204). -/
theorem exec_illegal_of_ready {i : Instr} {op : BitVec 3} {rest : BitVec 18} {s : State}
    (hpart : partA s.params i = S1.raise .illegalOp ((op ++ rest).setWidth 32)) (hready : s.reqReady = true) :
    ∃ t, exec i s = .next t ∧
      t.s1 = ⟨true, false, 4#3, BitVec.ofNat 32 (op.toNat * 2 ^ 18 + rest.toNat), 0#11, false, false, false, 0#12⟩ ∧
      t.s1.finish = ⟨4#3, BitVec.ofNat 32 (op.toNat * 2 ^ 18 + rest.toNat)⟩ := by
  obtain ⟨t, hexec, hs1⟩ := exec_of_ready i hready
  rw [hpart, setWidth_op_append] at hs1
  refine ⟨t, hexec, hs1, ?_⟩
  rw [hs1, S1.finish_valid]
  exact finish_raise (by decide) _

/-- Settles O32: both ops raise ILLEGAL_OP with their whole word in part A. -/
theorem illegalOpResult : Obligations.IllegalOpResult :=
  ⟨fun _ => decode_illegalOp6, fun _ => decode_illegalOp7, fun _ w hready =>
    ⟨exec_illegal_of_ready (i := .illegalOp6 w) (op := 6#3) rfl hready,
      exec_illegal_of_ready (i := .illegalOp7 w) (op := 7#3) rfl hready⟩⟩

/-! ## What the taken entry reaches (R200) -/

/-- Of the entry an edge takes in, only S1's data fields depend on it: the edge resets or holds without reading it, or
puts it into S1 alone (R37 to R39). -/
theorem blockEdge_entry (s : State) (valid : Bool) (a b : S1) :
    s.blockEdge valid a = { s.blockEdge valid b with s1 := (s.blockEdge valid a).s1 } ∧
    (s.blockEdge valid a).s1.v = (s.blockEdge valid b).s1.v := by
  rcases blockEdge_cases s valid a with ⟨hr, ha⟩ | ⟨hr, hs, ha⟩ | ⟨hr, hs, ha⟩
  · rw [ha, blockEdge_of_rst hr]
    exact ⟨rfl, rfl⟩
  · rw [ha, blockEdge_of_stall hr hs]
    exact ⟨rfl, rfl⟩
  · rw [ha, blockEdge_of_ready ((reqReady_iff s).2 ⟨hr, hs⟩)]
    exact ⟨rfl, rfl⟩

/-- The host's move and the edge counter do not read the taken entry either (R86). -/
theorem clockEdge_entry (s : State) (valid : Bool) (a b : S1) :
    clockEdge valid a s = { clockEdge valid b s with s1 := (clockEdge valid a s).s1 } ∧
    (clockEdge valid a s).s1.v = (clockEdge valid b s).s1.v := by
  obtain ⟨hstate, hv⟩ := blockEdge_entry s valid a b
  refine ⟨?_, hv⟩
  rw [clockEdge, hstate]
  rfl

/-- Settles O34: the two operations are the same clock edge with different entries. -/
theorem errorsAffectNothingElse : Obligations.ErrorsAffectNothingElse := by
  intro i j s t u hi hj
  rw [exec_eq] at hi hj
  obtain rfl := Host.Outcome.next.inj hi
  obtain rfl := Host.Outcome.next.inj hj
  exact clockEdge_entry s true _ _

end Sys2Proof.Machine

/-! Where a request stands at each edge after its acceptance (R238), what one edge without reset does at each setting
of `rsp_ready` (R235, R239), the parameters (R237), and the host's duty to keep its request (R233). -/

namespace Sys2Proof.Machine

/-! ## A step by its kind of edge (R38, R39) -/

/-- A step of a ready block advances every stage (R38). -/
theorem step_of_ready {s t : State} (hst : step s = .next t) (hready : s.reqReady = true) :
    t.s1 = { stageA s.params s.ports.reqWord with v := s.ports.reqValid } ∧
      t.s2 = { stageB s.s1 with v := s.s1.v } ∧ t.s3 = { stageC s.s2 with v := s.s2.v } := by
  obtain ⟨-, rfl⟩ := step_next hst
  simp [blockEdge_of_ready hready]

/-- A step of a stalled block that is not reset keeps every stage (R39). -/
theorem step_of_stall {s t : State} (hst : step s = .next t) (hrst : s.ports.rst = false) (hstall : s.stall = true) :
    t.s1 = s.s1 ∧ t.s2 = s.s2 ∧ t.s3 = s.s3 := by
  obtain ⟨-, rfl⟩ := step_next hst
  simp [blockEdge_of_stall hrst hstall]

/-! ## Latency (R238) -/

/-- A step that accepts a request puts what stage A makes of it into S1 (R38, R53). -/
theorem s1_of_accepted {s t : State} {w : ReqWord} (hst : step s = .next t) (h : s.accepted = some w) :
    t.s1 = { stageA s.params w with v := true } := by
  obtain ⟨hvalid, hready, hword⟩ := (accepted_eq_some_iff s w).1 h
  obtain ⟨hs1, -, -⟩ := step_of_ready hst hready
  rw [hs1, hvalid, hword]

/-- Settles O23: the request goes into S1 at its acceptance, and each ready edge moves it one stage on; the response
that the three stages make of it is `Op`'s. -/
theorem latencyIsThreeEdges : Obligations.LatencyIsThreeEdges := by
  intro s t u v w haccepted hst htu huv htready huready
  have hs1 : t.s1 = { stageA s.params w with v := true } := s1_of_accepted hst haccepted
  have hs2 : u.s2 = { stageB (stageA s.params w) with v := true } := by
    obtain ⟨-, h, -⟩ := step_of_ready htu htready
    rw [h, hs1, stageB_valid]
  have hs3 : v.s3 = { stageC (stageB (stageA s.params w)) with v := true } := by
    obtain ⟨-, -, h⟩ := step_of_ready huv huready
    rw [h, hs2, stageC_valid]
  have hoffered : v.rspValid = true := congrArg S3.v hs3
  have hresponse : v.s3.response = opResponse s.params w := by
    rw [hs3, S3.response_valid, ← finish_stageA]
    rfl
  exact ⟨hs1, hs2, hoffered, hresponse, fun hrst hrsp =>
    (transferred_eq_some_iff v _).2 ⟨hoffered, hrsp, hrst, hresponse⟩⟩

/-! ## One edge at each setting of `rsp_ready` (R235, R237, R239) -/

/-- The response word of a valid S3 is its response alone (R34). -/
theorem rspWord_of_rspValid {s : State} (h : s.rspValid = true) : s.rspWord = s.s3.response.pack := if_pos h

/-- Settles O18: the untaken response stalls the block, and a stalled edge keeps every stage. -/
theorem responseStaysUntilTaken : Obligations.ResponseStaysUntilTaken := by
  intro s t hvalid hrst hrsp hst
  have hstall : s.stall = true := (stall_iff s).2 ⟨hvalid, hrsp⟩
  obtain ⟨hs1, hs2, hs3⟩ := step_of_stall hst hrst hstall
  have hoffered : t.rspValid = true := (congrArg S3.v hs3).trans hvalid
  refine ⟨hstall, hoffered, ?_, hs3, ?_⟩
  · rw [rspWord_of_rspValid hoffered, rspWord_of_rspValid hvalid, hs3]
  · rw [State.inFlight, State.inFlight, hs1, hs2, hs3]

/-- Settles O21: no kind of edge writes them. -/
theorem parametersNeverChange : Obligations.ParametersNeverChange := fun _ _ => step_params

/-- A block that is not reset is ready whenever the host takes its response (R35, R36). -/
theorem reqReady_of_rspReady {s : State} (hrst : s.ports.rst = false) (hrsp : s.ports.rspReady = true) :
    s.reqReady = true :=
  (reqReady_iff s).2 ⟨hrst, by simp [State.stall, hrsp]⟩

/-- Settles O22: the block is ready, so each handshake needs its valid bit alone. -/
theorem oneRequestAndOneResponsePerEdge : Obligations.OneRequestAndOneResponsePerEdge := fun s hrst hrsp =>
  ⟨fun hvalid => (accepted_eq_some_iff s _).2 ⟨hvalid, reqReady_of_rspReady hrst hrsp, rfl⟩,
    fun hvalid => (transferred_eq_some_iff s _).2 ⟨hvalid, hrsp, hrst, rfl⟩⟩

/-! ## The host's duty (R233) -/

/-- A host that holds a request keeps its duty exactly by offering that request (R233). -/
theorem hostKeepsRequest_iff {s : State} {w : ReqWord} (h : s.host.held = some w) :
    s.hostKeepsRequest = true ↔ s.ports.reqValid = true ∧ s.ports.reqWord = w := by
  simp [State.hostKeepsRequest, h]

/-- The host's breach of its duty is the first thing a step looks at (R233). -/
theorem step_of_breach {s : State} (h : s.hostKeepsRequest = false) : step s = .refused .hostChangedRequest := by
  simp [step, State.stopped, h]

/-- No request is accepted exactly when a side of the handshake is 0 (R53). -/
theorem accepted_eq_none_iff (s : State) : s.accepted = none ↔ (s.ports.reqValid && s.reqReady) = false := by
  simp [State.accepted]

/-- After an edge the host holds the request it offered, if that was not accepted (R233). -/
theorem hostAfter_held_eq_some_iff (s : State) (accepted : Bool) (w : ReqWord) :
    (s.hostAfter accepted).held = some w ↔ s.ports.reqValid = true ∧ s.ports.reqWord = w ∧ accepted = false := by
  simp [State.hostAfter, and_assoc, and_comm (a := accepted = false)]

/-- Settles O24: the duty is checked first, and what the host holds after an edge is set by that edge's handshake. -/
theorem changedRequestIsRefused : Obligations.ChangedRequestIsRefused := by
  refine ⟨fun s w hheld hchanged => step_of_breach ?_, fun s t hst w => ?_⟩
  · exact Bool.eq_false_iff.2 fun hkeeps => hchanged ((hostKeepsRequest_iff hheld).1 hkeeps)
  · obtain ⟨-, rfl⟩ := step_next hst
    rw [clockEdge_host, hostAfter_held_eq_some_iff, accepted_eq_none_iff]

end Sys2Proof.Machine
